-- ==== Sys2Proof/Word.lean ====
section
/-! DEFINITION. The plainest data types of the core: bytes, levels, directions, interval classes, the enumerated state
elements, the causes and the transmission unit. Their binary codings stand in Machine/Operands.lean. -/

namespace Sys2Proof

/-- 8 bits, bit 0 the least significant (00_scope.md R10). A logical bit is a `Bool`: `false` is 0, `true` is 1. -/
abbrev Byte := BitVec 8

/-- A level of the line (30_encoding.md R91). -/
inductive Level where
  | low | high
deriving DecidableEq, Repr, Inhabited

/-- The direction of an edge event (30_encoding.md R100). -/
inductive Dir where
  | falling | rising
deriving DecidableEq, Repr, Inhabited

/-- The three classes of an interval (41_classifier.md R132). -/
inductive IvClass where
  | halfIv | fullIv | neither
deriving DecidableEq, Repr, Inhabited

/-- `enc_mode` (10_state.md R33); the code 3 is never taken and has no constructor. -/
inductive EncMode where
  | run | closing | stopped
deriving DecidableEq, Repr, Inhabited

/-- `sync` (10_state.md R40). -/
inductive Sync where
  | searching | synced
deriving DecidableEq, Repr, Inhabited

/-- `phase` (10_state.md R43). -/
inductive Phase where
  | mid | boundary
deriving DecidableEq, Repr, Inhabited

/-- The causes (60_exceptions.md R241). -/
inductive Cause where
  | pinDriveFailure | bitSlip | framingStart | framingStop | phaseViolation | tsOrder
  | writeAfterClose | closeReleaseFailure
deriving DecidableEq, Repr, Inhabited

/-- A transmission unit `{framed, payload}` (30_encoding.md R94). -/
structure TxUnit where
  framed  : Bool
  payload : Byte
deriving DecidableEq, Repr, Inhabited

end Sys2Proof
end

