-- ==== Sys2Proof/Config.lean ====
section
/-! DEFINITION. The parameters of an instance (00_scope.md R5 to R9, 10_state.md R25) and the values the spec leaves
free, as constants without a body. -/

namespace Sys2Proof

/-- The parameters of an instance. `TSW` and `CNTW` do not appear: timestamps and byte counts are unbounded naturals
(00_scope.md R9, log entry 9). -/
structure Params where
  /-- `HALF`, cycles per half-bit (R5). -/
  half    : Nat
  /-- `TOL`, the tolerance in cycles (R6). -/
  tol     : Nat
  /-- `QDEPTH`, the capacity of the frame queue (R7). -/
  qdepth  : Nat
  /-- `NPROD`, the number of producer ports (R7). -/
  nprod   : Nat
  /-- `SYNC_RUN`, the lock threshold (R8). -/
  syncRun : Nat
  /-- `RUN_MAX`, the value the run counter saturates at; `none` is the unbounded counter R9 admits (log entry 10). -/
  runMax  : Option Nat
deriving DecidableEq, Repr

/-- `BIT = 2 * HALF`, exactly (R5). -/
def Params.bit (c : Params) : Nat := 2 * c.half

/-- `HALF = floor(F_CLK / (2 * CARRIER_HZ))` (R5). -/
def Params.halfOf (fClk carrierHz : Nat) : Nat := fClk / (2 * carrierHz)

/-- A configuration the spec does not refuse (93_implementation_defined.md section 3). One with `RUN_MAX < SYNC_RUN`, which R9
rules out and that section gives no treatment for, runs: its decoder saturates below the threshold and never locks (DESIGN
CHOICE, log entry 10). -/
def Params.sane (c : Params) : Bool := decide (1 ≤ c.half ∧ 1 ≤ c.qdepth ∧ 1 ≤ c.nprod)

/-- A legal configuration (00_scope.md glossary, 70_reset_and_hazards.md R286), with `RUN_MAX >= SYNC_RUN` (R9). -/
abbrev Params.Legal (c : Params) : Prop :=
  1 ≤ c.half ∧ 1 ≤ c.qdepth ∧ 1 ≤ c.nprod ∧ 13 ≤ c.syncRun ∧ c.syncRun ≤ 30 ∧ 2 * c.tol < c.half ∧
    ∀ m ∈ c.runMax, c.syncRun ≤ m

/-- The configuration `State.reset` carries: that of program S9 of 95_test_vectors.md.
DESIGN CHOICE, unsafe for a statement about `State.reset` alone (log entry 2). -/
def Params.s9 : Params :=
  { half := 500, tol := 100, qdepth := 4, nprod := 2, syncRun := 16, runMax := none }

/-- `rx_data` while `rx_valid = 0`: unspecified (10_state.md R24, 70_reset_and_hazards.md R281).
DESIGN CHOICE, safe: a free value (log entry 11). -/
opaque Config.freeRxData : Nat → Byte

/-- `rx_err_code` while `rx_err_valid = 0`: unspecified (R24, R281). DESIGN CHOICE, safe: a free value (log entry 11). -/
opaque Config.freeRxErrCode : Nat → BitVec 4

/-- `halflevel(u, pos)` for `pos` outside `0 .. nhalves(u) - 1`: the spec states no level there (30_encoding.md R98).
DESIGN CHOICE, safe: a free value (log entry 12). -/
opaque Config.freeHalflevel : TxUnit → Nat → Level

end Sys2Proof
end

