-- ==== Sys2Proof/Machine/Operands.lean ====
section
/-! DEFINITION. The operand forms of the core: the binary codings of its enumerated values, the layout of symbols, units
and bursts, and the mapping between the bits of a byte and the slots of a unit. Pure functions, no state. -/

namespace Sys2Proof

/-! ### Codings (00_scope.md R10, 10_state.md R33, R40, R43, 60_exceptions.md R241) -/

/-- `Low = 0`, `High = 1` (30_encoding.md R91). -/
def Level.toBit : Level → Bool
  | .low => false
  | .high => true

/-- The level a bit stands for (R91). -/
def Level.ofBit : Bool → Level
  | false => .low
  | true => .high

/-- `FALLING = 0`, `RISING = 1` (30_encoding.md R100). -/
def Dir.toBit : Dir → Bool
  | .falling => false
  | .rising => true

/-- The direction a bit of `edge_dir` stands for (R100). -/
def Dir.ofBit : Bool → Dir
  | false => .falling
  | true => .rising

/-- `RUN = 0`, `CLOSING = 1`, `STOPPED = 2` (10_state.md R33). -/
def EncMode.code : EncMode → BitVec 2
  | .run => 0
  | .closing => 1
  | .stopped => 2

/-- The mode a code stands for; the code 3 stands for none (R33, 30_encoding.md R108). -/
def EncMode.ofCode (c : BitVec 2) : Option EncMode :=
  match c.toNat with
  | 0 => some .run
  | 1 => some .closing
  | 2 => some .stopped
  | _ => none

/-- `SEARCHING = 0`, `SYNCED = 1` (10_state.md R40). -/
def Sync.toBit : Sync → Bool
  | .searching => false
  | .synced => true

/-- The value of `sync` a bit stands for (R40). -/
def Sync.ofBit : Bool → Sync
  | false => .searching
  | true => .synced

/-- `MID = 0`, `BOUNDARY = 1` (10_state.md R43). -/
def Phase.toBit : Phase → Bool
  | .mid => false
  | .boundary => true

/-- The value of `phase` a bit stands for (R43). -/
def Phase.ofBit : Bool → Phase
  | false => .mid
  | true => .boundary

/-- The 4-bit cause codes (60_exceptions.md R241). -/
def Cause.code : Cause → BitVec 4
  | .pinDriveFailure => 1
  | .bitSlip => 2
  | .framingStart => 3
  | .framingStop => 4
  | .phaseViolation => 5
  | .tsOrder => 6
  | .writeAfterClose => 7
  | .closeReleaseFailure => 8

/-- The cause a code stands for; the codes 0 and 9 to 15 are unused (R241, 30_encoding.md R108). -/
def Cause.ofCode (c : BitVec 4) : Option Cause :=
  match c.toNat with
  | 1 => some .pinDriveFailure
  | 2 => some .bitSlip
  | 3 => some .framingStart
  | 4 => some .framingStop
  | 5 => some .phaseViolation
  | 6 => some .tsOrder
  | 7 => some .writeAfterClose
  | 8 => some .closeReleaseFailure
  | _ => none

/-- The causes that appear on `rx_err_code`: the codes 2 to 6 (R241). -/
def Cause.isDecoder : Cause → Bool
  | .bitSlip | .framingStart | .framingStop | .phaseViolation | .tsOrder => true
  | .pinDriveFailure | .writeAfterClose | .closeReleaseFailure => false

/-- Format `QE9`: the flag in bit 8, the byte in bits 7 to 0 (30_encoding.md R94). -/
def TxUnit.pack (u : TxUnit) : BitVec 9 := BitVec.ofBool u.framed ++ u.payload

/-- The unit a queue entry stands for (R94). -/
def TxUnit.unpack (w : BitVec 9) : TxUnit := { framed := w.getLsbD 8, payload := w.extractLsb' 0 8 }

/-- The preamble unit `P = {0, 0xFF}` (R94). -/
def TxUnit.preamble : TxUnit := { framed := false, payload := 0xFF }

/-- The framed unit `F(b) = {1, b}` (R94). -/
def TxUnit.frame (b : Byte) : TxUnit := { framed := true, payload := b }

/-- A unit the arbiter can create: a framed unit or the preamble unit (R94, R108). -/
def TxUnit.creatable (u : TxUnit) : Bool := u.framed || u.payload == 0xFF

/-! ### Bits of a byte -/

/-- The bits of a byte in the order of the line, least significant first (20_memory.md R63). -/
def byteBits (v : Byte) : List Bool := (List.range 8).map v.getLsbD

/-- `v[i] <- b` (00_scope.md R10, used by 44_decoder.md R211). -/
def setBit (v : Byte) (i : Nat) (b : Bool) : Byte :=
  if b then v ||| (1#8 <<< i) else v &&& ~~~(1#8 <<< i)

/-! ### Symbols (30_encoding.md R92, R93, R106) -/

/-- The level of half `h` of the bit cell of `b`: `b xor h` (R92, R98). -/
def cellLevel (b h : Bool) : Level := Level.ofBit (xor b h)

/-- The logical bit of a pair of half-bit levels; the pairs `LL` and `HH` are no symbols (R92, R106). -/
def symbolBit : Level → Level → Option Bool
  | .low, .high => some false
  | .high, .low => some true
  | .low, .low => none
  | .high, .high => none

/-- The direction of the mid-bit edge of a pair of half-bit levels, where it has one (R92, R93, R106). -/
def symbolEdge : Level → Level → Option Dir
  | .low, .high => some .rising
  | .high, .low => some .falling
  | .low, .low => none
  | .high, .high => none

/-- The logical bit of a mid-bit edge (44_decoder.md R209). -/
def bitval : Dir → Bool
  | .rising => false
  | .falling => true

/-! ### Units (30_encoding.md R95 to R98) -/

/-- The logical bits of a unit in time order: start bit, data bits and stop bit of a framed unit (R95), the data bits
alone of an unframed unit (R96). -/
def unitBits (u : TxUnit) : List Bool :=
  if u.framed then false :: (byteBits u.payload ++ [true]) else byteBits u.payload

/-- The number of half-bits of a unit (R97). -/
def nhalves (u : TxUnit) : Nat := if u.framed then 20 else 16

/-- The level of half-bit `pos` of unit `u` (R98): `unit_bits(u)[pos div 2] xor (pos mod 2)` for `pos < nhalves(u)`.
Outside that range the spec states no level: a free value (log entry 12). -/
def halflevel (u : TxUnit) (pos : Nat) : Level :=
  if pos < nhalves u then cellLevel ((unitBits u).getD (pos / 2) false) (pos % 2 == 1)
  else Config.freeHalflevel u pos

/-- All half-bit levels of a unit in time order (R98, R174). -/
def unitLevels (u : TxUnit) : List Level := (List.range (nhalves u)).map (halflevel u)

/-! ### Bursts (30_encoding.md R101) -/

/-- The units of one `write` call: two preamble units, then one framed unit for each byte (R101). -/
def burstUnits (bs : List Byte) : List TxUnit :=
  TxUnit.preamble :: TxUnit.preamble :: bs.map TxUnit.frame

/-- The half-bit levels of a sequence of units sent without a gap (R101, 43_encoder.md R178). -/
def lineLevels (us : List TxUnit) : List Level := us.flatMap unitLevels

end Sys2Proof
end

