-- ==== Sys2Proof/Syntax.lean ====
section
/-! DEFINITION. The operations of the core: one constructor of `Instr` for each row of spec/opcode_table.json, the formats
the table names (30_encoding.md R90 and R105), and the words in which an operation is presented. -/

namespace Sys2Proof

/-- The formats of the opcode table (30_encoding.md R90, R105). A word is always presented AT a format: the same bits
are a symbol on the line and a value of an enumerated state element (log entry 5). -/
inductive Format where
  | sym | unitF | unitU | burst | qe9 | edge | port | decode | func | code | cause
deriving DecidableEq, Repr, Inhabited

/-- The three queue operations of row QOPS (42_queue_arbiter.md R141). -/
inductive QOp where
  | qlen
  | qpush (u : TxUnit)
  | qpop
deriving DecidableEq, Repr

/-- The rows of spec/opcode_table.json, in the table's order. -/
inductive Instr where
  -- symbols (R92, R106)
  | sym0 | sym1 | symLL | symHH
  -- units and bursts on the line (R95, R96, R101, R102)
  | unitF (v : Byte)
  | unitU (v : Byte)
  | preamble
  | burst (bs : List Byte)
  -- queue entries (R94, R108)
  | qePreamble
  | qeFramed (v : Byte)
  | qeReserved (v : Byte)
  -- edge events (R201)
  | edgeR (ts : Nat)
  | edgeF (ts : Nat)
  -- port events (R105)
  | reset
  | clkstep
  | tick (fail : Bool)
  | wopen (p : Nat)
  | wgrant (p : Nat)
  | wpre
  | wbyte (p : Nat) (b : Byte)
  | wend (p : Nat)
  | wrefuse (p : Nat)
  | close
  -- cases of the decoder's step (R201 to R215)
  | edgeFirst (dir : Dir) (ts : Nat)
  | edgeTsOrder (dir : Dir) (ts : Nat)
  | edgeSHalf (dir : Dir) (ts : Nat)
  | edgeSFull (dir : Dir) (ts : Nat)
  | edgeSNeither (dir : Dir) (ts : Nat)
  | edgeYHalf (dir : Dir) (ts : Nat)
  | edgeYFull (dir : Dir) (ts : Nat)
  | edgeYNeither (dir : Dir) (ts : Nat)
  | deliverStart (b : Bool)
  | deliverData (b : Bool)
  | deliverStop (b : Bool)
  | resync (code : Cause)
  -- combinational functions (R95 to R98, R130, R132, R141, R209)
  | within (v r tol : Nat)
  | classify (dt : Nat)
  | unitBits (u : TxUnit)
  | nhalves (u : TxUnit)
  | halflevel (u : TxUnit) (pos : Nat)
  | bitval (dir : Dir)
  | qops (op : QOp)
  -- codings of enumerated values (R33, R40, R43, R91, R100, R108)
  | levelLow | levelHigh
  | dirFalling | dirRising
  | modeRun | modeClosing | modeStopped | modeReserved
  | syncSearching | syncSynced
  | phaseMid | phaseBoundary
  -- causes (R241)
  | causePinDriveFailure | causeBitSlip | causeFramingStart | causeFramingStop
  | causePhaseViolation | causeTsOrder
  | causeWriteAfterClose (p : Nat)
  | causeCloseReleaseFailure
deriving DecidableEq, Repr

/-- The format of an operation's row in the opcode table. -/
def Instr.format : Instr → Format
  | .sym0 | .sym1 | .symLL | .symHH => .sym
  | .unitF _ => .unitF
  | .unitU _ | .preamble => .unitU
  | .burst _ => .burst
  | .qePreamble | .qeFramed _ | .qeReserved _ => .qe9
  | .edgeR _ | .edgeF _ => .edge
  | .reset | .clkstep | .tick _ | .wopen _ | .wgrant _ | .wpre | .wbyte _ _ | .wend _ | .wrefuse _ | .close => .port
  | .edgeFirst _ _ | .edgeTsOrder _ _ | .edgeSHalf _ _ | .edgeSFull _ _ | .edgeSNeither _ _ | .edgeYHalf _ _
  | .edgeYFull _ _ | .edgeYNeither _ _ | .deliverStart _ | .deliverData _ | .deliverStop _ | .resync _ => .decode
  | .within _ _ _ | .classify _ | .unitBits _ | .nhalves _ | .halflevel _ _ | .bitval _ | .qops _ => .func
  | .levelLow | .levelHigh | .dirFalling | .dirRising | .modeRun | .modeClosing | .modeStopped | .modeReserved
  | .syncSearching | .syncSynced | .phaseMid | .phaseBoundary => .code
  | .causePinDriveFailure | .causeBitSlip | .causeFramingStart | .causeFramingStop | .causePhaseViolation
  | .causeTsOrder | .causeWriteAfterClose _ | .causeCloseReleaseFailure => .cause

/-- An operation as it is presented to the core: the format (the place the bits stand at) and the bits, byte by byte,
the first byte the lowest. -/
structure OpWord where
  fmt   : Format
  bytes : List Byte
deriving DecidableEq, Repr

/-- Why a word is no operation; raised by `decode`. Safe: the model stops where the spec describes no operation. -/
inductive DecodeError where
  /-- The word ends before its operands do. -/
  | truncated
  /-- The word goes on after its operands. -/
  | trailing
  /-- No row of the format has this selector. -/
  | unknownRow
  /-- A bit above the format's width is set. -/
  | reservedBits
  /-- An operand is outside the range the row gives it. -/
  | badOperand
  /-- The logical bits of a framed unit have a wrong start or stop bit (30_encoding.md R95, R107). -/
  | framing
  /-- A burst without its two preamble units, or with an unframed unit after them (30_encoding.md R101). -/
  | noPreamble
  /-- A natural written with more bytes than it needs. -/
  | nonMinimal
deriving DecidableEq, Repr

end Sys2Proof
end

