-- ==== Sys2Proof/WellFormed.lean ====
section
/-! DEFINITION. The checks an operation must pass: the operand ranges the opcode table and the rules give. -/

namespace Sys2Proof

/-- The operand ranges of the rows.
UNIT_U and QE_RESERVED exclude the payload 0xFF, which is the row PREAMBLE and the row QE_PREAMBLE (R94, R108).
RESYNC takes the causes of code 2 to 6 (44_decoder.md R214).
HALFLEVEL takes every position, those R98 states no level for among them (log entry 12), and QPush every unit (R94).
A producer index is a natural; whether its port exists depends on `NPROD` and is checked when the event runs. -/
def Instr.wellFormed : Instr → Bool
  | .sym0 | .sym1 | .symLL | .symHH => true
  | .unitF _ => true
  | .unitU v => v != 0xFF
  | .preamble => true
  | .burst _ => true
  | .qePreamble | .qeFramed _ => true
  | .qeReserved v => v != 0xFF
  | .edgeR _ | .edgeF _ => true
  | .reset | .clkstep | .tick _ | .wopen _ | .wgrant _ | .wpre | .wbyte _ _ | .wend _ | .wrefuse _ | .close => true
  | .edgeFirst _ _ | .edgeTsOrder _ _ | .edgeSHalf _ _ | .edgeSFull _ _ | .edgeSNeither _ _ | .edgeYHalf _ _
  | .edgeYFull _ _ | .edgeYNeither _ _ | .deliverStart _ | .deliverData _ | .deliverStop _ => true
  | .resync c => c.isDecoder
  | .within _ _ _ | .classify _ | .unitBits _ | .nhalves _ | .halflevel _ _ | .bitval _ | .qops _ => true
  | .levelLow | .levelHigh | .dirFalling | .dirRising | .modeRun | .modeClosing | .modeStopped | .modeReserved
  | .syncSearching | .syncSynced | .phaseMid | .phaseBoundary => true
  | .causePinDriveFailure | .causeBitSlip | .causeFramingStart | .causeFramingStop | .causePhaseViolation
  | .causeTsOrder | .causeWriteAfterClose _ | .causeCloseReleaseFailure => true

end Sys2Proof
end

