-- ==== Sys2Proof/Decode.lean ====
section
/-! DEFINITION. The decoder, total on any bytes of any format and rejecting by name, and after it the encoder.
Where the spec gives a row bits (SYM, UNIT_F, UNIT_U, BURST, QE9, EDGE, CODE, CAUSE) they are those bits, least significant
byte first. A logical bit sequence is a number whose bit 0 is the bit sent first. Rows that are only named (PORT, DECODE,
FUNC) are selected by their place in the opcode table, counted from 0 inside the format (DESIGN CHOICE, log entry 4).
A natural is written 7 bits a byte, least significant group first, bit 7 set while more bytes follow, with no
superfluous byte (DESIGN CHOICE, log entry 4). -/

namespace Sys2Proof

/-- What a decoder answers. -/
abbrev Decoded := Except DecodeError Instr

/-! ### Naturals -/

/-- A natural from the front of the bytes, with the bytes after it. -/
def readNat : List Byte → Except DecodeError (Nat × List Byte)
  | [] => .error .truncated
  | b :: bs =>
    if b.toNat < 128 then .ok (b.toNat, bs)
    else match readNat bs with
      | .error e => .error e
      | .ok (n, rest) => if n = 0 then .error .nonMinimal else .ok (b.toNat - 128 + 128 * n, rest)

/-- The bytes of a natural, with the natural itself as enough fuel. -/
def natBytesFuel : Nat → Nat → List Byte
  | 0, n => [BitVec.ofNat 8 n]
  | f + 1, n =>
    if n < 128 then [BitVec.ofNat 8 n]
    else BitVec.ofNat 8 (128 + n % 128) :: natBytesFuel f (n / 128)

/-- The bytes of a natural. -/
def natBytes (n : Nat) : List Byte := natBytesFuel n n

/-! ### Reading operands -/

/-- The operation, when nothing follows it. -/
def finish (i : Instr) : List Byte → Decoded
  | [] => .ok i
  | _ :: _ => .error .trailing

/-- Reads a byte. -/
def withByte (bs : List Byte) (k : Byte → List Byte → Decoded) : Decoded :=
  match bs with
  | [] => .error .truncated
  | b :: rest => k b rest

/-- Reads a natural. -/
def withNat (bs : List Byte) (k : Nat → List Byte → Decoded) : Decoded :=
  match readNat bs with
  | .error e => .error e
  | .ok (n, rest) => k n rest

/-- Reads one bit, held in a byte. -/
def withBit (bs : List Byte) (k : Bool → List Byte → Decoded) : Decoded :=
  withByte bs fun b rest =>
    match b.toNat with
    | 0 => k false rest
    | 1 => k true rest
    | _ => .error .reservedBits

/-- Reads a queue entry, 9 bits in two bytes (30_encoding.md R94). -/
def withUnit (bs : List Byte) (k : TxUnit → List Byte → Decoded) : Decoded :=
  withByte bs fun lo rest => withBit rest fun framed rest' => k { framed := framed, payload := lo } rest'

/-- Reads an edge: the direction in bit 0 of the first byte, then the timestamp (30_encoding.md R100). -/
def withEdge (bs : List Byte) (k : Dir → Nat → List Byte → Decoded) : Decoded :=
  withBit bs fun d rest => withNat rest fun ts rest' => k (Dir.ofBit d) ts rest'

/-- The two bytes of a queue entry (30_encoding.md R94). -/
def unitBytes (u : TxUnit) : List Byte := [u.payload, if u.framed then 1 else 0]

/-- A bit, held in a byte. -/
def bitByte (b : Bool) : List Byte := [if b then 1 else 0]

/-- The bytes of an edge. -/
def edgeBytes (d : Dir) (ts : Nat) : List Byte := bitByte d.toBit ++ natBytes ts

/-! ### One decoder for each format -/

/-- Format SYM: `{half0, half1}` with `Low = 0` (30_encoding.md R92, R106). -/
def decodeSym (bs : List Byte) : Decoded :=
  withByte bs fun b rest =>
    match b.toNat with
    | 0 => finish .symLL rest
    | 1 => finish .sym0 rest
    | 2 => finish .sym1 rest
    | 3 => finish .symHH rest
    | _ => .error .reservedBits

/-- Format UNIT_F: ten logical bits, the start bit in bit 0 and the stop bit in bit 9 (30_encoding.md R95). -/
def decodeUnitF (bs : List Byte) : Decoded :=
  withByte bs fun lo rest => withByte rest fun hi rest' =>
    if 4 ≤ hi.toNat then .error .reservedBits
    else if lo.toNat % 2 = 0 ∧ 2 ≤ hi.toNat then
      finish (.unitF (BitVec.ofNat 8 (lo.toNat / 2 + 128 * (hi.toNat - 2)))) rest'
    else .error .framing

/-- Format UNIT_U: eight logical bits; the preamble unit has its own row (30_encoding.md R96, R102). -/
def decodeUnitU (bs : List Byte) : Decoded :=
  withByte bs fun v rest => if v = 0xFF then finish .preamble rest else finish (.unitU v) rest

/-- The payload of a burst: framed units only (30_encoding.md R101). -/
def decodeFrames : List Byte → Except DecodeError (List Byte)
  | [] => .ok []
  | [_] => .error .truncated
  | v :: f :: rest =>
    if f = 1 then
      match decodeFrames rest with
      | .error e => .error e
      | .ok vs => .ok (v :: vs)
    else if f = 0 then .error .noPreamble else .error .reservedBits

/-- Format BURST: two preamble units, then framed units, each as a queue entry (30_encoding.md R101). -/
def decodeBurst (bs : List Byte) : Decoded :=
  withUnit bs fun u rest => withUnit rest fun u' rest' =>
    if u = TxUnit.preamble ∧ u' = TxUnit.preamble then
      match decodeFrames rest' with
      | .error e => .error e
      | .ok vs => .ok (.burst vs)
    else .error .noPreamble

/-- Format QE9 (30_encoding.md R94, R108). -/
def decodeQe9 (bs : List Byte) : Decoded :=
  withUnit bs fun u rest =>
    if u.framed then finish (.qeFramed u.payload) rest
    else if u.payload = 0xFF then finish .qePreamble rest
    else finish (.qeReserved u.payload) rest

/-- Format EDGE (30_encoding.md R100). -/
def decodeEdge (bs : List Byte) : Decoded :=
  withEdge bs fun d ts rest =>
    match d with
    | .rising => finish (.edgeR ts) rest
    | .falling => finish (.edgeF ts) rest

/-- Format PORT: the ten rows in the table's order (30_encoding.md R105). -/
def decodePort (bs : List Byte) : Decoded :=
  withByte bs fun b rest =>
    match b.toNat with
    | 0 => finish .reset rest
    | 1 => finish .clkstep rest
    | 2 => withBit rest fun f r => finish (.tick f) r
    | 3 => withNat rest fun p r => finish (.wopen p) r
    | 4 => withNat rest fun p r => finish (.wgrant p) r
    | 5 => finish .wpre rest
    | 6 => withNat rest fun p r => withByte r fun v r' => finish (.wbyte p v) r'
    | 7 => withNat rest fun p r => finish (.wend p) r
    | 8 => withNat rest fun p r => finish (.wrefuse p) r
    | 9 => finish .close rest
    | _ => .error .unknownRow

/-- Format DECODE: the twelve rows in the table's order (44_decoder.md R201). -/
def decodeDecode (bs : List Byte) : Decoded :=
  withByte bs fun b rest =>
    match b.toNat with
    | 0 => withEdge rest fun d ts r => finish (.edgeFirst d ts) r
    | 1 => withEdge rest fun d ts r => finish (.edgeTsOrder d ts) r
    | 2 => withEdge rest fun d ts r => finish (.edgeSHalf d ts) r
    | 3 => withEdge rest fun d ts r => finish (.edgeSFull d ts) r
    | 4 => withEdge rest fun d ts r => finish (.edgeSNeither d ts) r
    | 5 => withEdge rest fun d ts r => finish (.edgeYHalf d ts) r
    | 6 => withEdge rest fun d ts r => finish (.edgeYFull d ts) r
    | 7 => withEdge rest fun d ts r => finish (.edgeYNeither d ts) r
    | 8 => withBit rest fun v r => finish (.deliverStart v) r
    | 9 => withBit rest fun v r => finish (.deliverData v) r
    | 10 => withBit rest fun v r => finish (.deliverStop v) r
    | 11 => withByte rest fun c r =>
        match c.toNat with
        | 2 => finish (.resync .bitSlip) r
        | 3 => finish (.resync .framingStart) r
        | 4 => finish (.resync .framingStop) r
        | 5 => finish (.resync .phaseViolation) r
        | 6 => finish (.resync .tsOrder) r
        | _ => .error .badOperand
    | _ => .error .unknownRow

/-- Format FUNC: the seven rows in the table's order (30_encoding.md R105). -/
def decodeFunc (bs : List Byte) : Decoded :=
  withByte bs fun b rest =>
    match b.toNat with
    | 0 => withNat rest fun v r => withNat r fun w r' => withNat r' fun t r'' => finish (.within v w t) r''
    | 1 => withNat rest fun dt r => finish (.classify dt) r
    | 2 => withUnit rest fun u r => finish (.unitBits u) r
    | 3 => withUnit rest fun u r => finish (.nhalves u) r
    | 4 => withUnit rest fun u r => withNat r fun pos r' =>
        finish (.halflevel u pos) r'
    | 5 => withBit rest fun d r => finish (.bitval (Dir.ofBit d)) r
    | 6 => withByte rest fun o r =>
        match o.toNat with
        | 0 => finish (.qops .qlen) r
        | 1 => withUnit r fun u r' => finish (.qops (.qpush u)) r'
        | 2 => finish (.qops .qpop) r
        | _ => .error .badOperand
    | _ => .error .unknownRow

/-- Format CODE: the number of the coded element (level, direction, mode, sync, phase), then the code
(30_encoding.md R91, R100, R108, 10_state.md R33, R40, R43). -/
def decodeCode (bs : List Byte) : Decoded :=
  withByte bs fun e rest => withByte rest fun c r =>
    match e.toNat, c.toNat with
    | 0, 0 => finish .levelLow r
    | 0, 1 => finish .levelHigh r
    | 1, 0 => finish .dirFalling r
    | 1, 1 => finish .dirRising r
    | 2, 0 => finish .modeRun r
    | 2, 1 => finish .modeClosing r
    | 2, 2 => finish .modeStopped r
    | 2, 3 => finish .modeReserved r
    | 3, 0 => finish .syncSearching r
    | 3, 1 => finish .syncSynced r
    | 4, 0 => finish .phaseMid r
    | 4, 1 => finish .phaseBoundary r
    | 0, _ => .error .reservedBits
    | 1, _ => .error .reservedBits
    | 2, _ => .error .reservedBits
    | 3, _ => .error .reservedBits
    | 4, _ => .error .reservedBits
    | _, _ => .error .unknownRow

/-- Format CAUSE: the 4-bit code (60_exceptions.md R241); WRITE_AFTER_CLOSE is followed by its producer. -/
def decodeCause (bs : List Byte) : Decoded :=
  withByte bs fun c rest =>
    match c.toNat with
    | 1 => finish .causePinDriveFailure rest
    | 2 => finish .causeBitSlip rest
    | 3 => finish .causeFramingStart rest
    | 4 => finish .causeFramingStop rest
    | 5 => finish .causePhaseViolation rest
    | 6 => finish .causeTsOrder rest
    | 7 => withNat rest fun p r => finish (.causeWriteAfterClose p) r
    | 8 => finish .causeCloseReleaseFailure rest
    | _ => .error .unknownRow

/-- The operation a word stands for, or the name of what is wrong with it. -/
def decode (w : OpWord) : Decoded :=
  match w.fmt with
  | .sym => decodeSym w.bytes
  | .unitF => decodeUnitF w.bytes
  | .unitU => decodeUnitU w.bytes
  | .burst => decodeBurst w.bytes
  | .qe9 => decodeQe9 w.bytes
  | .edge => decodeEdge w.bytes
  | .port => decodePort w.bytes
  | .decode => decodeDecode w.bytes
  | .func => decodeFunc w.bytes
  | .code => decodeCode w.bytes
  | .cause => decodeCause w.bytes

/-! ### Bare words of the opcode table -/

/-- `k` bytes of a number, least significant first. -/
def leBytes : Nat → Nat → List Byte
  | 0, _ => []
  | k + 1, w => BitVec.ofNat 8 w :: leBytes k (w / 256)

/-- A bare word of the opcode table as a word of this model. The table gives the bits without the place they stand at, and
rows of different formats share bits, so the format is chosen by width and value: of one byte, 0 to 3 is a symbol, 4 to 8
a cause code (operand words of zeros after it), anything else an unframed unit; of two bytes, a queue entry when it is
below 0x200 and a framed unit otherwise; longer, a burst (DESIGN CHOICE, log entry 5). -/
def tableWord (nbits w : Nat) : OpWord :=
  if nbits ≤ 8 then
    if w ≤ 3 then { fmt := .sym, bytes := leBytes 1 w }
    else if w = 7 then { fmt := .cause, bytes := leBytes 2 w }
    else if w ≤ 8 then { fmt := .cause, bytes := leBytes 1 w }
    else { fmt := .unitU, bytes := leBytes 1 w }
  else if nbits ≤ 16 then
    if w < 0x200 then { fmt := .qe9, bytes := leBytes 2 w }
    else { fmt := .unitF, bytes := leBytes 2 w }
  else { fmt := .burst, bytes := leBytes ((nbits + 7) / 8) w }

/-- The operation the decoder reads from a bare word of the opcode table. -/
def decodeTableWord (nbits w : Nat) : Option Instr :=
  match decode (tableWord nbits w) with
  | .ok i => some i
  | .error _ => none

/-! ### The encoder -/

/-- The bytes of an operation at its format. -/
def encodeBytes : Instr → List Byte
  | .symLL => [0]
  | .sym0 => [1]
  | .sym1 => [2]
  | .symHH => [3]
  | .unitF v => leBytes 2 (2 * v.toNat + 512)
  | .unitU v => [v]
  | .preamble => [0xFF]
  | .burst bs => (burstUnits bs).flatMap unitBytes
  | .qePreamble => [0xFF, 0]
  | .qeFramed v => [v, 1]
  | .qeReserved v => [v, 0]
  | .edgeR ts => edgeBytes .rising ts
  | .edgeF ts => edgeBytes .falling ts
  | .reset => [0]
  | .clkstep => [1]
  | .tick f => 2 :: bitByte f
  | .wopen p => 3 :: natBytes p
  | .wgrant p => 4 :: natBytes p
  | .wpre => [5]
  | .wbyte p b => 6 :: (natBytes p ++ [b])
  | .wend p => 7 :: natBytes p
  | .wrefuse p => 8 :: natBytes p
  | .close => [9]
  | .edgeFirst d ts => 0 :: edgeBytes d ts
  | .edgeTsOrder d ts => 1 :: edgeBytes d ts
  | .edgeSHalf d ts => 2 :: edgeBytes d ts
  | .edgeSFull d ts => 3 :: edgeBytes d ts
  | .edgeSNeither d ts => 4 :: edgeBytes d ts
  | .edgeYHalf d ts => 5 :: edgeBytes d ts
  | .edgeYFull d ts => 6 :: edgeBytes d ts
  | .edgeYNeither d ts => 7 :: edgeBytes d ts
  | .deliverStart b => 8 :: bitByte b
  | .deliverData b => 9 :: bitByte b
  | .deliverStop b => 10 :: bitByte b
  | .resync c => [11, c.code.setWidth 8]
  | .within v r t => 0 :: (natBytes v ++ natBytes r ++ natBytes t)
  | .classify dt => 1 :: natBytes dt
  | .unitBits u => 2 :: unitBytes u
  | .nhalves u => 3 :: unitBytes u
  | .halflevel u pos => 4 :: (unitBytes u ++ natBytes pos)
  | .bitval d => 5 :: bitByte d.toBit
  | .qops .qlen => [6, 0]
  | .qops (.qpush u) => 6 :: 1 :: unitBytes u
  | .qops .qpop => [6, 2]
  | .levelLow => [0, 0]
  | .levelHigh => [0, 1]
  | .dirFalling => [1, 0]
  | .dirRising => [1, 1]
  | .modeRun => [2, 0]
  | .modeClosing => [2, 1]
  | .modeStopped => [2, 2]
  | .modeReserved => [2, 3]
  | .syncSearching => [3, 0]
  | .syncSynced => [3, 1]
  | .phaseMid => [4, 0]
  | .phaseBoundary => [4, 1]
  | .causePinDriveFailure => [1]
  | .causeBitSlip => [2]
  | .causeFramingStart => [3]
  | .causeFramingStop => [4]
  | .causePhaseViolation => [5]
  | .causeTsOrder => [6]
  | .causeWriteAfterClose p => 7 :: natBytes p
  | .causeCloseReleaseFailure => [8]

/-- The word of an operation: its bytes, presented at the format of its row. -/
def encode (i : Instr) : OpWord := { fmt := i.format, bytes := encodeBytes i }

end Sys2Proof
end

