-- ==== Sys2Proof/Machine/State.lean ====
section
/-! DEFINITION. The state of the core as plain data: every element of spec/10_state.md, the strobes of its R24, and the
model's own fields (parameters, stimuli, observation); the stops; the state after reset (70_reset_and_hazards.md R280). -/

namespace Sys2Proof.Machine

/-- One cycle's sample of the input ports (10_state.md R23) and the arbiter's free pick (42_queue_arbiter.md R146).
A producer the lists do not reach drives 0. -/
structure PortIn where
  /-- `rst`. -/
  rst       : Bool
  /-- `wr_req[p]`. -/
  wrReq     : List Bool
  /-- `wr_valid[p]`. -/
  wrValid   : List Bool
  /-- `wr_data[p]`. -/
  wrData    : List Byte
  /-- `close_req`. -/
  closeReq  : Bool
  /-- `drv_err`. -/
  drvErr    : Bool
  /-- `edge_valid`. -/
  edgeValid : Bool
  /-- `edge_dir`: 1 is `RISING`. -/
  edgeDir   : Bool
  /-- `edge_ts`. -/
  edgeTs    : Nat
  /-- The arbiter's pick among the requesting producers, a free input (R146, 10_state.md R50, log entry 20). -/
  pick      : Nat
deriving DecidableEq, Repr

/-- A cycle in which no input is driven. -/
def PortIn.quiet : PortIn :=
  { rst := false, wrReq := [], wrValid := [], wrData := [], closeReq := false, drvErr := false,
    edgeValid := false, edgeDir := false, edgeTs := 0, pick := 0 }

/-- What drives one step: an operation presented as a word (the event-level machine, 00_scope.md R4), or one cycle of
`clk` with its port sample (the cycle-level machine, 60_exceptions.md R250). -/
inductive Stimulus where
  | word (w : OpWord)
  | ports (inp : PortIn)
deriving DecidableEq, Repr

/-- The value of the last function, format or coding row evaluated. Not a hardware element: those rows are no events
(30_encoding.md R105) and change no state of the core (DESIGN CHOICE, log entry 13). -/
inductive FnResult where
  | none
  | truth (b : Bool)
  | cls (c : IvClass)
  | bits (bs : List Bool)
  | num (n : Nat)
  | level (l : Level)
  | bit (b : Bool)
  | dir (d : Dir)
  | mode (m : Option EncMode)
  | sync (y : Sync)
  | phase (p : Phase)
  | symbol (half0 half1 : Level) (bit : Option Bool) (edge : Option Dir)
  | entry (code : BitVec 9) (u : TxUnit)
  | unit (u : TxUnit)
  | line (bits : List Bool) (levels : List Level)
  | burst (units : List TxUnit) (levels : List Level)
deriving DecidableEq, Repr

/-- The stops with a fault. The core itself has none: no condition stops it (60_exceptions.md R240). -/
inductive Fault where
  /-- An event names a producer whose port does not exist (`p >= NPROD`, 10_state.md R23, 60_exceptions.md R263).
  Raised by the meanings of WOPEN, WGRANT, WBYTE, WEND, WREFUSE and CAUSE_WRITE_AFTER_CLOSE.
  Safe: the spec gives no such port (log entry 17). -/
  | noSuchProducer (p : Nat)
deriving DecidableEq, Repr

/-- The stops with a refusal. -/
inductive Refusal where
  /-- An operation that has no meaning yet; raised by no arm. Safe. -/
  | notModelled (mnemonic : String)
  /-- The next stimulus is a word that is no operation; raised by `step`. Safe: the spec describes no such operation
  (log entry 4). -/
  | undecodable (e : DecodeError)
  /-- `HALF = 0`, `QDEPTH = 0` or `NPROD = 0`; raised by `step`. Safe: the spec says to refuse such a configuration
  (93_implementation_defined.md section 3, log entry 18). -/
  | illegalConfig
deriving DecidableEq, Repr

/-- The state of the core. -/
structure State where
  /-- The parameters of the instance: constants, written by nothing (10_state.md R25, log entry 2). -/
  cfg          : Params
  /-- The stimuli to come (log entry 3). -/
  stim         : List Stimulus
  -- half-bit clock generator
  /-- `clk_run` (R26). -/
  clkRun       : Bool
  /-- `div` (R27). -/
  div          : Nat
  -- frame queue and write arbiter
  /-- `q`, head first (R28). -/
  q            : List TxUnit
  /-- `owner` (R29). -/
  owner        : Option Nat
  /-- `pre_left` (R30). -/
  preLeft      : Nat
  /-- `wr_count[p]` (R31). -/
  wrCount      : List Nat
  /-- `wr_err[p]` (R32). -/
  wrErr        : List Bool
  -- encoder
  /-- `enc_mode` (R33). -/
  encMode      : EncMode
  /-- `busy` (R34). -/
  busy         : Bool
  /-- `cur` (R35). -/
  cur          : TxUnit
  /-- `pos` (R36). -/
  pos          : Nat
  /-- `tx` (R37). -/
  tx           : Level
  /-- `close_done` (R38). -/
  closeDone    : Bool
  /-- `drv_err_sticky` (R39). -/
  drvErrSticky : Bool
  -- decoder
  /-- `sync` (R40). -/
  sync         : Sync
  /-- `have_last` (R41). -/
  haveLast     : Bool
  /-- `last_ts` (R42). -/
  lastTs       : Nat
  /-- `phase` (R43). -/
  phase        : Phase
  /-- `run` (R44). -/
  run          : Nat
  /-- `slot` (R45). -/
  slot         : Nat
  /-- `shreg` (R46). -/
  shreg        : Byte
  -- output sequences, oldest first (R47)
  /-- `tx_log`. -/
  txLog        : List Level
  /-- `rx_bytes`. -/
  rxBytes      : List Byte
  /-- `rx_errs`. -/
  rxErrs       : List Cause
  -- the strobes of the last step (R24, log entry 22)
  /-- `tx_set`. -/
  txSet        : Bool
  /-- `wr_done[p]`. -/
  wrDone       : List Bool
  /-- `rx_valid` and, when it is 1, `rx_data`. -/
  rxEmit       : Option Byte
  /-- `rx_err_valid` and, when it is 1, the cause whose code is `rx_err_code`. -/
  rxErr        : Option Cause
  -- the model's own observation
  /-- The value of the last function, format or coding row evaluated (log entry 13). -/
  result       : FnResult
  /-- The counter the free values of the output ports are applied to (log entry 11). -/
  freeCount    : Nat
  /-- The number of the present cycle (00_scope.md R11, log entry 21). -/
  cycle        : Nat
  /-- The number of ticks since reset (00_scope.md R11, log entry 21). -/
  ticks        : Nat
deriving DecidableEq, Repr

/-- What an operation answers. -/
abbrev Out := Host.Outcome State Fault Refusal

/-- The state after reset of an instance with the parameters `c` (70_reset_and_hazards.md R280, R281). -/
def State.resetWith (c : Params) : State where
  cfg := c
  stim := []
  clkRun := true
  div := 0
  q := []
  owner := none
  preLeft := 0
  wrCount := List.replicate c.nprod 0
  wrErr := List.replicate c.nprod false
  encMode := .run
  busy := false
  cur := { framed := false, payload := 0x00 }
  pos := 0
  tx := .low
  closeDone := false
  drvErrSticky := false
  sync := .searching
  haveLast := false
  lastTs := 0
  phase := .mid
  run := 0
  slot := 0
  shreg := 0x00
  txLog := []
  rxBytes := []
  rxErrs := []
  txSet := false
  wrDone := List.replicate c.nprod false
  rxEmit := none
  rxErr := none
  result := .none
  freeCount := 0
  cycle := 0
  ticks := 0

/-- The machine right after reset, with the configuration of log entry 2 and no stimulus loaded. -/
def State.reset : State := State.resetWith Params.s9

end Sys2Proof.Machine
end

