-- ==== Sys2Proof/Machine/Flags.lean ====
section
/-! DEFINITION. Every decision the core computes: the tolerance classifier (41_classifier.md), the saturation of the run
counter, the conditions under which each event takes place (30_encoding.md R105), and the output ports (10_state.md R24). -/

namespace Sys2Proof

/-- `within(v, r, tol)`, both bounds inside, without subtraction (41_classifier.md R130). -/
def within (v r tol : Nat) : Bool := decide (v ≤ r + tol) && decide (r ≤ v + tol)

/-- `classify(dt)`: the half-bit reference is tried first (41_classifier.md R132, R133). -/
def classify (c : Params) (dt : Nat) : IvClass :=
  if within dt c.half c.tol then .halfIv
  else if within dt c.bit c.tol then .fullIv
  else .neither

/-- `sat(n) = min(n, RUN_MAX)` (44_decoder.md R201). -/
def sat (c : Params) (n : Nat) : Nat :=
  match c.runMax with
  | none => n
  | some m => min n m

namespace Machine

/-! ### The decoder's view of an edge -/

/-- The edge's timestamp is less than the one before it (44_decoder.md R203). -/
def tsBad (s : State) (ts : Nat) : Bool := decide (ts < s.lastTs)

/-- The class of the interval that ends at `ts`; `NEITHER` when the timestamp decreases (44_decoder.md R201, R203). -/
def edgeClass (s : State) (ts : Nat) : IvClass :=
  if tsBad s ts then .neither else classify s.cfg (ts - s.lastTs)

/-- The cause of a `NEITHER` interval (44_decoder.md R203, R207, R215). -/
def neitherCause (s : State) (ts : Nat) : Cause := if tsBad s ts then .tsOrder else .bitSlip

/-- The lock condition (44_decoder.md R206). -/
def lockCond (s : State) (dir : Dir) : Bool := dir == .rising && decide (s.cfg.syncRun ≤ s.run)

/-! ### The conditions of the events, on the state alone (30_encoding.md R105) -/

/-- The divider stands at its last value while the clock runs: a tick takes place (40_clock.md R122). -/
def tickDue (s : State) : Bool := s.clkRun && s.div == s.cfg.half - 1

/-- There is room in the queue (42_queue_arbiter.md R142). -/
def hasRoom (s : State) : Bool := decide (s.q.length < s.cfg.qdepth)

/-- QPush of `u` can take place: in `RUN` (20_memory.md R74), with room (42_queue_arbiter.md R141), and of a unit that one of the
two pushing events can create (30_encoding.md R94, R108; log entry 16). The owner is not asked: a QPush row presented on its own
appends with no burst open, and between two pushes of an open burst (DESIGN CHOICE, log entry 27). -/
def canPush (u : TxUnit) (s : State) : Bool := s.encMode == .run && u.creatable && hasRoom s

/-- A grant can be given (42_queue_arbiter.md R146). -/
def canGrant (s : State) : Bool := s.encMode == .run && s.owner == none

/-- A preamble unit can be inserted (42_queue_arbiter.md R147). -/
def canPre (s : State) : Bool := s.encMode == .run && s.owner != none && decide (0 < s.preLeft) && hasRoom s

/-- A payload byte of producer `p` can be taken: `wr_ready[p]` (42_queue_arbiter.md R148, 10_state.md R24). -/
def canByte (p : Nat) (s : State) : Bool :=
  s.encMode == .run && s.owner == some p && s.preLeft == 0 && hasRoom s

/-- The burst of producer `p` can end (42_queue_arbiter.md R149). -/
def canEnd (p : Nat) (s : State) : Bool := s.encMode == .run && s.owner == some p && s.preLeft == 0

/-- A write of producer `p` is refused (42_queue_arbiter.md R152). -/
def canRefuse (p : Nat) (s : State) : Bool := s.encMode != .run && s.owner != some p

/-- A close is accepted (43_encoder.md R185). -/
def canClose (s : State) : Bool := s.encMode == .run

/-! ### The output ports (10_state.md R24) -/

/-- The ports of R24. -/
structure Outputs where
  tx           : Bool
  txSet        : Bool
  wrGnt        : List Bool
  wrReady      : List Bool
  wrCount      : List Nat
  wrErr        : List Bool
  wrDone       : List Bool
  closeDone    : Bool
  closeErr     : Bool
  encMode      : BitVec 2
  encBusy      : Bool
  drvErrSticky : Bool
  rxValid      : Bool
  rxData       : Byte
  rxSynced     : Bool
  rxErrValid   : Bool
  rxErrCode    : BitVec 4

/-- The values on the output ports in the cycle that takes the core from `s` to `t`: the levels are functions of the state at
the start of the cycle, the strobes are 1 when the named event takes place in it (R24); the state after a step keeps the pulses
of that step (log entry 22). `rx_data` and `rx_err_code` are free values while their strobe is 0 (R281). -/
def outputs (s t : State) : Outputs where
  tx := s.tx.toBit
  txSet := t.txSet
  wrGnt := (List.range s.cfg.nprod).map fun p => s.owner == some p
  wrReady := (List.range s.cfg.nprod).map fun p => canByte p s
  wrCount := s.wrCount
  wrErr := s.wrErr
  wrDone := t.wrDone
  closeDone := s.closeDone
  closeErr := false
  encMode := s.encMode.code
  encBusy := s.busy
  drvErrSticky := s.drvErrSticky
  rxValid := t.rxEmit.isSome
  rxData := t.rxEmit.getD (Config.freeRxData t.freeCount)
  rxSynced := s.sync.toBit
  rxErrValid := t.rxErr.isSome
  rxErrCode := (t.rxErr.map Cause.code).getD (Config.freeRxErrCode t.freeCount)

end Machine

end Sys2Proof
end

