-- ==== Sys2Proof/Machine/Ops.lean ====
section
/-! DEFINITION. The shared operations over the state: the primitives of 00_scope.md R12, raising a cause (the core's
"exception entry", 60_exceptions.md R240 to R245, R252), the lock (its "return", R253), and the effect of each event.
An operation here has no condition of its own unless its rule gives it one; the events' conditions stand in Flags.lean. -/

namespace Sys2Proof.Machine

/-! ### Primitives -/

/-- The start of a step: the stimuli left, the strobes of the step before gone, a fresh place for the free values. -/
def beginStep (rest : List Stimulus) (s : State) : State :=
  { s with stim := rest, txSet := false, wrDone := List.replicate s.cfg.nprod false, rxEmit := none, rxErr := none,
           freeCount := s.freeCount + 1 }

/-- The value of a function, format or coding row (log entry 13). -/
def setResult (r : FnResult) (s : State) : State := { s with result := r }

/-- `SetLevel(l)` (00_scope.md R12, 43_encoder.md R174). -/
def setLevel (l : Level) (s : State) : State := { s with tx := l, txLog := s.txLog ++ [l], txSet := true }

/-- `EmitByte(v)` (00_scope.md R12, 44_decoder.md R212). -/
def emitByte (v : Byte) (s : State) : State := { s with rxBytes := s.rxBytes ++ [v], rxEmit := some v }

/-- Reports a decoder cause: its code on `rx_errs` and the strobe (00_scope.md R12, 60_exceptions.md R241). -/
def reportErr (c : Cause) (s : State) : State := { s with rxErrs := s.rxErrs ++ [c], rxErr := some c }

/-- The pulse of `wr_done[p]` (10_state.md R24). -/
def pulseDone (p : Nat) (s : State) : State := { s with wrDone := s.wrDone.set p true }

/-- `QPush(u)` (42_queue_arbiter.md R141). -/
def pushUnit (u : TxUnit) (s : State) : State := { s with q := s.q ++ [u] }

/-- `QPop()` on a queue `u :: rest`, `u` becoming the current unit (42_queue_arbiter.md R141, 43_encoder.md R172). -/
def popUnit (u : TxUnit) (rest : List TxUnit) (s : State) : State := { s with q := rest, cur := u }

/-! ### Raising a cause -/

/-- `resync(code)`: the one way out of `SYNCED` (44_decoder.md R214). -/
def resync (code : Cause) (s : State) : State :=
  reportErr code { s with sync := .searching, phase := .mid, slot := 0, shreg := 0x00 }

/-- A decoder cause while searching: `run <- 0` and the code (44_decoder.md R207, 60_exceptions.md R243). -/
def slipSearching (code : Cause) (s : State) : State := reportErr code { s with run := 0 }

/-- `PIN_DRIVE_FAILURE`: exactly `drv_err_sticky <- 1` (60_exceptions.md R242). -/
def driveFailure (s : State) : State := { s with drvErrSticky := true }

/-- `WRITE_AFTER_CLOSE` for the open burst of `p`: the burst ends, its count stays (60_exceptions.md R245). -/
def cutBurst (p : Nat) (s : State) : State :=
  pulseDone p { s with wrErr := s.wrErr.set p true, owner := none, preLeft := 0 }

/-- `WRITE_AFTER_CLOSE` for a refused call of `p` (42_queue_arbiter.md R152, 60_exceptions.md R245). -/
def refuseCall (p : Nat) (s : State) : State :=
  pulseDone p { s with wrCount := s.wrCount.set p 0, wrErr := s.wrErr.set p true }

/-- `raise <cause>(p)`: everything a cause changes (60_exceptions.md R241 to R245, R248, R252). Only BIT_SLIP and TS_ORDER
can occur while the decoder searches (R243); CLOSE_RELEASE_FAILURE is never raised (R248). The producer `p` matters to
WRITE_AFTER_CLOSE alone. -/
def raise (c : Cause) (p : Nat) (s : State) : State :=
  match c with
  | .pinDriveFailure => driveFailure s
  | .bitSlip | .tsOrder =>
    match s.sync with
    | .synced => resync c s
    | .searching => slipSearching c s
  | .framingStart | .framingStop | .phaseViolation =>
    match s.sync with
    | .synced => resync c s
    | .searching => s
  | .writeAfterClose => if s.owner = some p then cutBurst p s else refuseCall p s
  | .closeReleaseFailure => s

/-- The lock: the decoder leaves the searching state, the locking edge being the start bit's mid-bit edge
(44_decoder.md R206, 60_exceptions.md R253). -/
def lock (s : State) : State := { s with sync := .synced, phase := .mid, slot := 1, shreg := 0x00, run := 0 }

/-! ### Reset and clock -/

/-- `RESET` (70_reset_and_hazards.md R280): every element of the core; the parameters, the stimuli to come and the place
of the free values are not the core's (log entry 19). -/
def doReset (s : State) : State :=
  { State.resetWith s.cfg with stim := s.stim, freeCount := s.freeCount }

/-- `CLKSTEP` (40_clock.md R121). -/
def clockStep (s : State) : State :=
  { s with div := if s.div = s.cfg.half - 1 then 0 else s.div + 1 }

/-! ### Encoder -/

/-- Half-bit `k` of unit `u`: the level set, the driver's answer, the position (43_encoder.md R174, R175, R177). -/
def emitHalf (u : TxUnit) (k : Nat) (fail : Bool) (s : State) : State :=
  let s1 := setLevel (halflevel u k) s
  let s2 := if fail then raise .pinDriveFailure 0 s1 else s1
  if k = nhalves u - 1 then { s2 with busy := false, pos := 0 } else { s2 with busy := true, pos := k + 1 }

/-- The completion of a close (43_encoder.md R176). -/
def completeClose (s : State) : State := { s with encMode := .stopped, clkRun := false, closeDone := true }

/-- The encoder's step (43_encoder.md R171). -/
def encoderStep (fail : Bool) (s : State) : State :=
  if s.busy then emitHalf s.cur s.pos fail s
  else match s.q with
    | u :: rest => emitHalf u 0 fail (popUnit u rest s)
    | [] => if s.encMode = .closing then completeClose s else s

/-- `TICK(fail)`: the encoder's step; the tick is counted (40_clock.md R122, 00_scope.md R11). -/
def tickEvent (fail : Bool) (s : State) : State :=
  let t := encoderStep fail s
  { t with ticks := t.ticks + 1 }

/-! ### Write arbiter and close -/

/-- `WGRANT(p)` (42_queue_arbiter.md R146). -/
def grantEvent (p : Nat) (s : State) : State :=
  { s with owner := some p, preLeft := 2, wrCount := s.wrCount.set p 0, wrErr := s.wrErr.set p false }

/-- `WPRE` (42_queue_arbiter.md R147). -/
def preEvent (s : State) : State := pushUnit TxUnit.preamble { s with preLeft := s.preLeft - 1 }

/-- `WBYTE(p, b)` (42_queue_arbiter.md R148). -/
def byteEvent (p : Nat) (b : Byte) (s : State) : State :=
  pushUnit (TxUnit.frame b) { s with wrCount := s.wrCount.set p (s.wrCount.getD p 0 + 1) }

/-- `WEND(p)` (42_queue_arbiter.md R149). -/
def endEvent (p : Nat) (s : State) : State := pulseDone p { s with owner := none }

/-- `WREFUSE(p)` (42_queue_arbiter.md R152). -/
def refuseEvent (p : Nat) (s : State) : State := raise .writeAfterClose p s

/-- `CLOSE` (43_encoder.md R185). -/
def closeEvent (s : State) : State :=
  let s1 := match s.owner with
    | some p => raise .writeAfterClose p s
    | none => s
  { s1 with encMode := .closing, owner := none, preLeft := 0 }

/-! ### Decoder -/

/-- `deliver(b)` at `slot = 0` (44_decoder.md R210). -/
def deliverStart (b : Bool) (s : State) : State :=
  if b then raise .framingStart 0 s else { s with slot := 1, shreg := 0x00 }

/-- `deliver(b)` at `slot = 1 .. 8` (44_decoder.md R211). -/
def deliverData (b : Bool) (s : State) : State :=
  { s with shreg := setBit s.shreg (s.slot - 1) b, slot := s.slot + 1 }

/-- `deliver(b)` at `slot = 9` (44_decoder.md R212). -/
def deliverStop (b : Bool) (s : State) : State :=
  if b then { emitByte s.shreg s with slot := 0 } else raise .framingStop 0 s

/-- `deliver(b)` (44_decoder.md R201). -/
def deliver (b : Bool) (s : State) : State :=
  if s.slot = 0 then deliverStart b s
  else if s.slot ≤ 8 then deliverData b s
  else deliverStop b s

/-- The first edge after reset (44_decoder.md R202). -/
def firstEdge (ts : Nat) (s : State) : State := { s with haveLast := true, lastTs := ts, run := 0 }

/-- `last_ts <- ts` (44_decoder.md R204). -/
def setLast (ts : Nat) (s : State) : State := { s with lastTs := ts }

/-- `SEARCHING`, `HALF_IV` (44_decoder.md R205). -/
def searchHalf (s : State) : State := { s with run := sat s.cfg (s.run + 1) }

/-- `SEARCHING`, `FULL_IV` (44_decoder.md R206). -/
def searchFull (dir : Dir) (s : State) : State := if lockCond s dir then lock s else { s with run := 0 }

/-- `SEARCHING`, `NEITHER` (44_decoder.md R207). -/
def searchNeither (code : Cause) (s : State) : State := raise code 0 s

/-- `SYNCED`, `HALF_IV` (44_decoder.md R208). -/
def syncHalf (dir : Dir) (s : State) : State :=
  let s1 := { s with run := sat s.cfg (s.run + 1) }
  match s.phase with
  | .mid => { s1 with phase := .boundary }
  | .boundary => deliver (bitval dir) { s1 with phase := .mid }

/-- `SYNCED`, `FULL_IV` (44_decoder.md R213). -/
def syncFull (dir : Dir) (s : State) : State :=
  let s1 := { s with run := 0 }
  match s.phase with
  | .mid => deliver (bitval dir) s1
  | .boundary => raise .phaseViolation 0 s1

/-- `SYNCED`, `NEITHER` (44_decoder.md R215). -/
def syncNeither (code : Cause) (s : State) : State := raise code 0 { s with run := 0 }

/-- `EDGE(dir, ts)`, the whole step (44_decoder.md R201). Every case works on the state with `last_ts` already set (R204),
the class and the cause being those of the interval before it was. -/
def edgeEvent (dir : Dir) (ts : Nat) (s : State) : State :=
  if s.haveLast then
    let s1 := setLast ts s
    match s.sync, edgeClass s ts with
    | .searching, .halfIv => searchHalf s1
    | .searching, .fullIv => searchFull dir s1
    | .searching, .neither => searchNeither (neitherCause s ts) s1
    | .synced, .halfIv => syncHalf dir s1
    | .synced, .fullIv => syncFull dir s1
    | .synced, .neither => syncNeither (neitherCause s ts) s1
  else firstEdge ts s

end Sys2Proof.Machine
end

