-- ==== Sys2Proof/Machine/Cycle.lean ====
section
/-! DEFINITION. One cycle of `clk` (60_exceptions.md R250): which events take place, every condition evaluated on the state at
the start of the cycle (30_encoding.md R105), and their writes together. -/

namespace Sys2Proof.Machine

/-- The cycle's CLOSE condition (30_encoding.md R105: "closing"). -/
def closing (inp : PortIn) (s : State) : Bool := inp.closeReq && canClose s

/-- `wr_req[p]` of the sample. -/
def wrReqOf (inp : PortIn) (p : Nat) : Bool := inp.wrReq.getD p false

/-- The producers that request in this cycle. -/
def requesters (inp : PortIn) (s : State) : List Nat := (List.range s.cfg.nprod).filter (wrReqOf inp)

/-- The arbiter's choice: one of the requesting producers, if there is one, and which one is free (42_queue_arbiter.md R146,
log entry 20). -/
def picked (inp : PortIn) (s : State) : Option Nat :=
  (requesters inp s)[inp.pick % (requesters inp s).length]?

/-- The arbiter's event of the cycle, at most one (42_queue_arbiter.md R146 to R149, R151). -/
def arbiterEvent (inp : PortIn) (s : State) : Option Instr :=
  if closing inp s then none
  else if canGrant s then (picked inp s).map .wgrant
  else if canPre s then some .wpre
  else match s.owner with
    | none => none
    | some p =>
      if wrReqOf inp p then
        if canByte p s && inp.wrValid.getD p false then some (.wbyte p (inp.wrData.getD p 0)) else none
      else if canEnd p s then some (.wend p) else none

/-- The producers refused in this cycle (42_queue_arbiter.md R152). -/
def refusedProducers (inp : PortIn) (s : State) : List Nat :=
  (requesters inp s).filter fun p => s.owner != some p && (s.encMode != .run || closing inp s)

/-- The edge event of the cycle (44_decoder.md R201). -/
def edgeInput (inp : PortIn) : Option Instr :=
  if inp.edgeValid then
    match Dir.ofBit inp.edgeDir with
    | .rising => some (.edgeR inp.edgeTs)
    | .falling => some (.edgeF inp.edgeTs)
  else none

/-- The events of a cycle without `rst`, but for the divider's step (30_encoding.md R105). They stand in an order in which,
taken one after the other, each still finds what it reads as it was at the start of the cycle: TICK before CLOSE, because a
tick completes a close only when `enc_mode = CLOSING` at the start of its cycle (43_encoder.md R176, log entry 7), and TICK
before the push (60_exceptions.md R250). -/
def sampledEvents (inp : PortIn) (s : State) : List Instr :=
  (if tickDue s then [.tick inp.drvErr] else [])
    ++ (if closing inp s then [.close] else [])
    ++ (arbiterEvent inp s).toList
    ++ (refusedProducers inp s).map .wrefuse
    ++ (edgeInput inp).toList

/-- The events of a cycle (30_encoding.md R105), RESET excluding all others (70_reset_and_hazards.md R280); the divider counts
last, as the tick reads it (40_clock.md R121, R122). -/
def cycleEvents (inp : PortIn) (s : State) : List Instr :=
  if inp.rst then [.reset] else sampledEvents inp s ++ (if s.clkRun then [.clkstep] else [])

/-- The writes of one event, its condition having been evaluated. `cycleEvents` lists no other row; WOPEN changes no state
(42_queue_arbiter.md R145). -/
def applyEvent (s : State) : Instr → State
  | .reset => doReset s
  | .clkstep => clockStep s
  | .tick fail => tickEvent fail s
  | .wgrant p => grantEvent p s
  | .wpre => preEvent s
  | .wbyte p b => byteEvent p b s
  | .wend p => endEvent p s
  | .wrefuse p => refuseEvent p s
  | .close => closeEvent s
  | .edgeR ts => edgeEvent .rising ts s
  | .edgeF ts => edgeEvent .falling ts s
  | .wopen _ => s
  | .sym0 | .sym1 | .symLL | .symHH | .unitF _ | .unitU _ | .preamble | .burst _ | .qePreamble | .qeFramed _
  | .qeReserved _ | .edgeFirst _ _ | .edgeTsOrder _ _ | .edgeSHalf _ _ | .edgeSFull _ _ | .edgeSNeither _ _
  | .edgeYHalf _ _ | .edgeYFull _ _ | .edgeYNeither _ _ | .deliverStart _ | .deliverData _ | .deliverStop _ | .resync _
  | .within _ _ _ | .classify _ | .unitBits _ | .nhalves _ | .halflevel _ _ | .bitval _ | .qops _
  | .levelLow | .levelHigh | .dirFalling | .dirRising | .modeRun | .modeClosing | .modeStopped | .modeReserved
  | .syncSearching | .syncSynced | .phaseMid | .phaseBoundary
  | .causePinDriveFailure | .causeBitSlip | .causeFramingStart | .causeFramingStop | .causePhaseViolation
  | .causeTsOrder | .causeWriteAfterClose _ | .causeCloseReleaseFailure => s

/-- One cycle of `clk` with the port sample `inp` (60_exceptions.md R250). Cycle 0 is the first cycle after reset
(00_scope.md R11). -/
def clkCycle (inp : PortIn) (s : State) : State :=
  let t := (cycleEvents inp s).foldl applyEvent s
  { t with cycle := if inp.rst then 0 else s.cycle + 1 }

end Sys2Proof.Machine
end

