-- ==== Sys2Proof/Machine/Arbiter.lean ====
section
/-! DEFINITION. Family ARBITER: the producers' events and CLOSE (42_queue_arbiter.md R145 to R152, 43_encoder.md R185).
The event itself says what the producer's port shows (`wr_req[p]`, `wr_valid[p]`); the conditions here are those on the
state (30_encoding.md R105). An event whose condition does not hold does not take place (log entry 6); a producer without a
port is a fault (log entry 17). -/

namespace Sys2Proof.Machine

/-- The event of producer `p`, if `p` has a port (10_state.md R23). -/
def onProducer (p : Nat) (s : State) (t : State) : Out :=
  if p < s.cfg.nprod then .next t else .fault (.noSuchProducer p)

/-- WOPEN: "It is not an event of the core: it changes no state" (42_queue_arbiter.md R145). -/
def execWopen (p : Nat) (s : State) : Out := onProducer p s s

/-- WGRANT (42_queue_arbiter.md R146). -/
def execWgrant (p : Nat) (s : State) : Out := onProducer p s (if canGrant s then grantEvent p s else s)

/-- WPRE (42_queue_arbiter.md R147). -/
def execWpre (s : State) : Out := .next (if canPre s then preEvent s else s)

/-- WBYTE (42_queue_arbiter.md R148). -/
def execWbyte (p : Nat) (b : Byte) (s : State) : Out :=
  onProducer p s (if canByte p s then byteEvent p b s else s)

/-- WEND (42_queue_arbiter.md R149). -/
def execWend (p : Nat) (s : State) : Out := onProducer p s (if canEnd p s then endEvent p s else s)

/-- WREFUSE (42_queue_arbiter.md R152). -/
def execWrefuse (p : Nat) (s : State) : Out := onProducer p s (if canRefuse p s then refuseEvent p s else s)

/-- CLOSE (43_encoder.md R185). -/
def execClose (s : State) : Out := .next (if canClose s then closeEvent s else s)

end Sys2Proof.Machine
end

