-- ==== Sys2Proof/Machine/Causes.lean ====
section
/-! DEFINITION. Family CAUSE: raising each cause of 60_exceptions.md R241, with the effect R242, R243, R245 or R248 gives it
(log entry 15). A row names the cause without the event that raises it: where R241's condition speaks of that event, the row
takes its effect in every state (DESIGN CHOICE, log entry 15). -/

namespace Sys2Proof.Machine

/-- CAUSE_PIN_DRIVE_FAILURE (60_exceptions.md R242), whether or not a tick sets a level (DESIGN CHOICE, log entry 15). -/
def execCausePinDriveFailure (s : State) : Out := .next (raise .pinDriveFailure 0 s)

/-- CAUSE_BIT_SLIP (60_exceptions.md R243), before the first edge too (DESIGN CHOICE, log entry 15). -/
def execCauseBitSlip (s : State) : Out := .next (raise .bitSlip 0 s)

/-- CAUSE_FRAMING_START (60_exceptions.md R243). -/
def execCauseFramingStart (s : State) : Out := .next (raise .framingStart 0 s)

/-- CAUSE_FRAMING_STOP (60_exceptions.md R243). -/
def execCauseFramingStop (s : State) : Out := .next (raise .framingStop 0 s)

/-- CAUSE_PHASE_VIOLATION (60_exceptions.md R243). -/
def execCausePhaseViolation (s : State) : Out := .next (raise .phaseViolation 0 s)

/-- CAUSE_TS_ORDER (60_exceptions.md R243), before the first edge too (DESIGN CHOICE, log entry 15). -/
def execCauseTsOrder (s : State) : Out := .next (raise .tsOrder 0 s)

/-- CAUSE_WRITE_AFTER_CLOSE: raised when the encoder no longer accepts writes (60_exceptions.md R241, R245, log entry 15). -/
def execCauseWriteAfterClose (p : Nat) (s : State) : Out :=
  onProducer p s (if s.encMode != .run then raise .writeAfterClose p s else s)

/-- CAUSE_CLOSE_RELEASE_FAILURE: never raised; `close_err` stays 0 (60_exceptions.md R248). -/
def execCauseCloseReleaseFailure (s : State) : Out := .next (raise .closeReleaseFailure 0 s)

end Sys2Proof.Machine
end

