-- ==== Sys2Proof/Machine/Clock.lean ====
section
/-! DEFINITION. Family CLOCK: the events RESET, CLKSTEP and TICK (70_reset_and_hazards.md R280, 40_clock.md R121, R122,
43_encoder.md R171). An event whose condition does not hold does not take place: nothing changes (log entry 6). -/

namespace Sys2Proof.Machine

/-- RESET (70_reset_and_hazards.md R280). -/
def execReset (s : State) : Out := .next (doReset s)

/-- CLKSTEP, while `clk_run = 1` (40_clock.md R121). -/
def execClkstep (s : State) : Out := .next (if s.clkRun then clockStep s else s)

/-- TICK, while `clk_run = 1` and `div = HALF - 1` (40_clock.md R122, 43_encoder.md R171). Ticks presented as words with no
CLKSTEP between them all take place: the spacing of words is their presenter's (DESIGN CHOICE, log entry 26). -/
def execTick (fail : Bool) (s : State) : Out := .next (if tickDue s then tickEvent fail s else s)

end Sys2Proof.Machine
end

