-- ==== Sys2Proof/Machine/Codes.lean ====
section
/-! DEFINITION. Family CODE: the binary codings of the enumerated values (30_encoding.md R91, R100, R108, 10_state.md R33,
R40, R43). A coding is no event: the value the code stands for is left in the model's result and nothing of the core
changes (log entry 13). -/

namespace Sys2Proof.Machine

/-- LEVEL_LOW: the code 0 (30_encoding.md R91). -/
def execLevelLow (s : State) : Out := .next (setResult (.level (Level.ofBit false)) s)

/-- LEVEL_HIGH: the code 1 (30_encoding.md R91). -/
def execLevelHigh (s : State) : Out := .next (setResult (.level (Level.ofBit true)) s)

/-- DIR_FALLING: the code 0 (30_encoding.md R100). -/
def execDirFalling (s : State) : Out := .next (setResult (.dir (Dir.ofBit false)) s)

/-- DIR_RISING: the code 1 (30_encoding.md R100). -/
def execDirRising (s : State) : Out := .next (setResult (.dir (Dir.ofBit true)) s)

/-- MODE_RUN: the code 0 (10_state.md R33). -/
def execModeRun (s : State) : Out := .next (setResult (.mode (EncMode.ofCode 0)) s)

/-- MODE_CLOSING: the code 1 (10_state.md R33). -/
def execModeClosing (s : State) : Out := .next (setResult (.mode (EncMode.ofCode 1)) s)

/-- MODE_STOPPED: the code 2 (10_state.md R33). -/
def execModeStopped (s : State) : Out := .next (setResult (.mode (EncMode.ofCode 2)) s)

/-- MODE_RESERVED: the code 3, which stands for no mode (30_encoding.md R108, log entry 25). -/
def execModeReserved (s : State) : Out := .next (setResult (.mode (EncMode.ofCode 3)) s)

/-- SYNC_SEARCHING: the code 0 (10_state.md R40). -/
def execSyncSearching (s : State) : Out := .next (setResult (.sync (Sync.ofBit false)) s)

/-- SYNC_SYNCED: the code 1 (10_state.md R40). -/
def execSyncSynced (s : State) : Out := .next (setResult (.sync (Sync.ofBit true)) s)

/-- PHASE_MID: the code 0 (10_state.md R43). -/
def execPhaseMid (s : State) : Out := .next (setResult (.phase (Phase.ofBit false)) s)

/-- PHASE_BOUNDARY: the code 1 (10_state.md R43). -/
def execPhaseBoundary (s : State) : Out := .next (setResult (.phase (Phase.ofBit true)) s)

end Sys2Proof.Machine
end

