-- ==== Sys2Proof/Machine/Decoder.lean ====
section
/-! DEFINITION. Family DECODER: the edge events and the cases of the decoder's step (44_decoder.md R201 to R215).
A row of format DECODE is that case of the step: it takes place when the state and the interval select it, and changes
nothing otherwise (log entry 24). -/

namespace Sys2Proof.Machine

/-- EDGE_R: a rising edge (44_decoder.md R201). -/
def execEdgeR (ts : Nat) (s : State) : Out := .next (edgeEvent .rising ts s)

/-- EDGE_F: a falling edge (44_decoder.md R201). -/
def execEdgeF (ts : Nat) (s : State) : Out := .next (edgeEvent .falling ts s)

/-- The case of the step for the given `sync` and class is the one the edge selects (44_decoder.md R217). -/
def selects (y : Sync) (c : IvClass) (ts : Nat) (s : State) : Bool :=
  s.haveLast && s.sync == y && edgeClass s ts == c

/-- EDGE_FIRST: `have_last = 0` (44_decoder.md R202); the direction is not used. -/
def execEdgeFirst (_dir : Dir) (ts : Nat) (s : State) : Out := .next (if s.haveLast then s else firstEdge ts s)

/-- EDGE_TS_ORDER: `have_last = 1` and `ts < last_ts` (44_decoder.md R203); the direction is not used. -/
def execEdgeTsOrder (_dir : Dir) (ts : Nat) (s : State) : Out :=
  .next (if s.haveLast && tsBad s ts then
    match s.sync with
    | .searching => searchNeither .tsOrder (setLast ts s)
    | .synced => syncNeither .tsOrder (setLast ts s)
  else s)

/-- EDGE_S_HALF (44_decoder.md R205); the direction is not used. -/
def execEdgeSHalf (_dir : Dir) (ts : Nat) (s : State) : Out :=
  .next (if selects .searching .halfIv ts s then searchHalf (setLast ts s) else s)

/-- EDGE_S_FULL (44_decoder.md R206). -/
def execEdgeSFull (dir : Dir) (ts : Nat) (s : State) : Out :=
  .next (if selects .searching .fullIv ts s then searchFull dir (setLast ts s) else s)

/-- EDGE_S_NEITHER (44_decoder.md R207); the direction is not used. -/
def execEdgeSNeither (_dir : Dir) (ts : Nat) (s : State) : Out :=
  .next (if selects .searching .neither ts s then searchNeither (neitherCause s ts) (setLast ts s) else s)

/-- EDGE_Y_HALF (44_decoder.md R208). -/
def execEdgeYHalf (dir : Dir) (ts : Nat) (s : State) : Out :=
  .next (if selects .synced .halfIv ts s then syncHalf dir (setLast ts s) else s)

/-- EDGE_Y_FULL (44_decoder.md R213). -/
def execEdgeYFull (dir : Dir) (ts : Nat) (s : State) : Out :=
  .next (if selects .synced .fullIv ts s then syncFull dir (setLast ts s) else s)

/-- EDGE_Y_NEITHER (44_decoder.md R215); the direction is not used. -/
def execEdgeYNeither (_dir : Dir) (ts : Nat) (s : State) : Out :=
  .next (if selects .synced .neither ts s then syncNeither (neitherCause s ts) (setLast ts s) else s)

/-- A bit is delivered in `SYNCED` only, at the slot of the row (44_decoder.md R201, log entry 14). -/
def delivers (lo hi : Nat) (s : State) : Bool := s.sync == .synced && decide (lo ≤ s.slot) && decide (s.slot ≤ hi)

/-- DELIVER_START: `slot = 0` (44_decoder.md R210). -/
def execDeliverStart (b : Bool) (s : State) : Out := .next (if delivers 0 0 s then deliverStart b s else s)

/-- DELIVER_DATA: `slot = 1 .. 8` (44_decoder.md R211). -/
def execDeliverData (b : Bool) (s : State) : Out := .next (if delivers 1 8 s then deliverData b s else s)

/-- DELIVER_STOP: `slot = 9` (44_decoder.md R212). -/
def execDeliverStop (b : Bool) (s : State) : Out := .next (if delivers 9 9 s then deliverStop b s else s)

/-- RESYNC (44_decoder.md R214, log entry 14). -/
def execResync (code : Cause) (s : State) : Out := .next (resync code s)

end Sys2Proof.Machine
end

