-- ==== Sys2Proof/Machine/Functions.lean ====
section
/-! DEFINITION. Family FUNC: the functions of 30_encoding.md R95 to R98, 41_classifier.md R130, R132, 44_decoder.md R209 and
the queue operations of 42_queue_arbiter.md R141. They are no events: a function's value is left in the model's result and
nothing of the core changes (log entry 13), but for QPush and QPop, which change the queue as R141 says. -/

namespace Sys2Proof.Machine

/-- WITHIN (41_classifier.md R130). -/
def execWithin (v r tol : Nat) (s : State) : Out := .next (setResult (.truth (within v r tol)) s)

/-- CLASSIFY (41_classifier.md R132). -/
def execClassify (dt : Nat) (s : State) : Out := .next (setResult (.cls (classify s.cfg dt)) s)

/-- UNIT_BITS (30_encoding.md R95, R96). -/
def execUnitBits (u : TxUnit) (s : State) : Out := .next (setResult (.bits (unitBits u)) s)

/-- NHALVES (30_encoding.md R97). -/
def execNhalves (u : TxUnit) (s : State) : Out := .next (setResult (.num (nhalves u)) s)

/-- HALFLEVEL (30_encoding.md R98). -/
def execHalflevel (u : TxUnit) (pos : Nat) (s : State) : Out := .next (setResult (.level (halflevel u pos)) s)

/-- BITVAL (44_decoder.md R209). -/
def execBitval (dir : Dir) (s : State) : Out := .next (setResult (.bit (bitval dir)) s)

/-- QOPS (42_queue_arbiter.md R141): QPush only where `canPush` holds; QPop only on a queue that is not empty; otherwise
the operation does not take place (log entry 16). A QPush row is of no burst: no owner, count or `pre_left` is read or written
(DESIGN CHOICE, log entry 27). A unit that a QPop row removes outside a TICK is left in the result and never emitted, in `CLOSING`
too (DESIGN CHOICE, log entry 28). -/
def execQops (op : QOp) (s : State) : Out :=
  .next (match op with
    | .qlen => setResult (.num s.q.length) s
    | .qpush u => if canPush u s then pushUnit u s else s
    | .qpop =>
      match s.q with
      | [] => s
      | u :: rest => setResult (.unit u) { s with q := rest })

end Sys2Proof.Machine
end

