-- ==== Sys2Proof/Machine/Line.lean ====
section
/-! DEFINITION. Family LINE: the rows of the formats SYM, UNIT_F, UNIT_U, BURST and QE9. A row of these formats is a layout,
not an event (30_encoding.md R105): its meaning is what the layout lays out, left in the model's result, and nothing of the
core changes (log entry 13). -/

namespace Sys2Proof.Machine

/-- The value of a pair of half-bit levels (30_encoding.md R92, R93, R106). -/
def symbolValue (h0 h1 : Level) : FnResult := .symbol h0 h1 (symbolBit h0 h1) (symbolEdge h0 h1)

/-- The value of a unit on the line: its logical bits and its half-bit levels (30_encoding.md R95, R96, R98). -/
def unitValue (u : TxUnit) : FnResult := .line (unitBits u) (unitLevels u)

/-- The value of a queue entry: its 9 bits and the unit they stand for (30_encoding.md R94). -/
def entryValue (w : BitVec 9) : FnResult := .entry w (TxUnit.unpack w)

/-- SYM0: `L H`, the logical 0 (30_encoding.md R92). -/
def execSym0 (s : State) : Out := .next (setResult (symbolValue .low .high) s)

/-- SYM1: `H L`, the logical 1 (30_encoding.md R92). -/
def execSym1 (s : State) : Out := .next (setResult (symbolValue .high .low) s)

/-- SYM_LL: no symbol (30_encoding.md R106, log entry 25). -/
def execSymLL (s : State) : Out := .next (setResult (symbolValue .low .low) s)

/-- SYM_HH: no symbol (30_encoding.md R106, log entry 25). -/
def execSymHH (s : State) : Out := .next (setResult (symbolValue .high .high) s)

/-- UNIT_F: a framed unit on the line (30_encoding.md R95). -/
def execUnitF (v : Byte) (s : State) : Out := .next (setResult (unitValue (TxUnit.frame v)) s)

/-- UNIT_U: an unframed unit on the line (30_encoding.md R96). -/
def execUnitU (v : Byte) (s : State) : Out :=
  .next (setResult (unitValue { framed := false, payload := v }) s)

/-- PREAMBLE: the preamble unit on the line (30_encoding.md R96, R102). -/
def execPreamble (s : State) : Out := .next (setResult (unitValue TxUnit.preamble) s)

/-- BURST: one `write` call as units and, sent without a gap, as half-bit levels (30_encoding.md R101). -/
def execBurst (bs : List Byte) (s : State) : Out :=
  .next (setResult (.burst (burstUnits bs) (lineLevels (burstUnits bs))) s)

/-- QE_PREAMBLE: the entry 0x0FF (30_encoding.md R94). -/
def execQePreamble (s : State) : Out := .next (setResult (entryValue 0x0FF) s)

/-- QE_FRAMED: an entry with the flag set (30_encoding.md R94). -/
def execQeFramed (v : Byte) (s : State) : Out := .next (setResult (entryValue (1#1 ++ v)) s)

/-- QE_RESERVED: an entry no port can create, for which the line functions are defined all the same (30_encoding.md R108). -/
def execQeReserved (v : Byte) (s : State) : Out := .next (setResult (entryValue (0#1 ++ v)) s)

end Sys2Proof.Machine
end

