-- ==== Sys2Proof/Machine/Dispatch.lean ====
section
/-! DEFINITION. The meaning of every operation: one arm for each row of spec/opcode_table.json. -/

namespace Sys2Proof.Machine

/-- The meaning of an operation in a state. -/
def exec (i : Instr) (s : State) : Host.Outcome State Fault Refusal :=
  match i with
  | .sym0 => Sys2Proof.Machine.execSym0 s
  | .sym1 => Sys2Proof.Machine.execSym1 s
  | .symLL => Sys2Proof.Machine.execSymLL s
  | .symHH => Sys2Proof.Machine.execSymHH s
  | .unitF v => Sys2Proof.Machine.execUnitF v s
  | .unitU v => Sys2Proof.Machine.execUnitU v s
  | .preamble => Sys2Proof.Machine.execPreamble s
  | .burst bs => Sys2Proof.Machine.execBurst bs s
  | .qePreamble => Sys2Proof.Machine.execQePreamble s
  | .qeFramed v => Sys2Proof.Machine.execQeFramed v s
  | .qeReserved v => Sys2Proof.Machine.execQeReserved v s
  | .edgeR ts => Sys2Proof.Machine.execEdgeR ts s
  | .edgeF ts => Sys2Proof.Machine.execEdgeF ts s
  | .reset => Sys2Proof.Machine.execReset s
  | .clkstep => Sys2Proof.Machine.execClkstep s
  | .tick fail => Sys2Proof.Machine.execTick fail s
  | .wopen p => Sys2Proof.Machine.execWopen p s
  | .wgrant p => Sys2Proof.Machine.execWgrant p s
  | .wpre => Sys2Proof.Machine.execWpre s
  | .wbyte p b => Sys2Proof.Machine.execWbyte p b s
  | .wend p => Sys2Proof.Machine.execWend p s
  | .wrefuse p => Sys2Proof.Machine.execWrefuse p s
  | .close => Sys2Proof.Machine.execClose s
  | .edgeFirst dir ts => Sys2Proof.Machine.execEdgeFirst dir ts s
  | .edgeTsOrder dir ts => Sys2Proof.Machine.execEdgeTsOrder dir ts s
  | .edgeSHalf dir ts => Sys2Proof.Machine.execEdgeSHalf dir ts s
  | .edgeSFull dir ts => Sys2Proof.Machine.execEdgeSFull dir ts s
  | .edgeSNeither dir ts => Sys2Proof.Machine.execEdgeSNeither dir ts s
  | .edgeYHalf dir ts => Sys2Proof.Machine.execEdgeYHalf dir ts s
  | .edgeYFull dir ts => Sys2Proof.Machine.execEdgeYFull dir ts s
  | .edgeYNeither dir ts => Sys2Proof.Machine.execEdgeYNeither dir ts s
  | .deliverStart b => Sys2Proof.Machine.execDeliverStart b s
  | .deliverData b => Sys2Proof.Machine.execDeliverData b s
  | .deliverStop b => Sys2Proof.Machine.execDeliverStop b s
  | .resync code => Sys2Proof.Machine.execResync code s
  | .within v r tol => Sys2Proof.Machine.execWithin v r tol s
  | .classify dt => Sys2Proof.Machine.execClassify dt s
  | .unitBits u => Sys2Proof.Machine.execUnitBits u s
  | .nhalves u => Sys2Proof.Machine.execNhalves u s
  | .halflevel u pos => Sys2Proof.Machine.execHalflevel u pos s
  | .bitval dir => Sys2Proof.Machine.execBitval dir s
  | .qops op => Sys2Proof.Machine.execQops op s
  | .levelLow => Sys2Proof.Machine.execLevelLow s
  | .levelHigh => Sys2Proof.Machine.execLevelHigh s
  | .dirFalling => Sys2Proof.Machine.execDirFalling s
  | .dirRising => Sys2Proof.Machine.execDirRising s
  | .modeRun => Sys2Proof.Machine.execModeRun s
  | .modeClosing => Sys2Proof.Machine.execModeClosing s
  | .modeStopped => Sys2Proof.Machine.execModeStopped s
  | .modeReserved => Sys2Proof.Machine.execModeReserved s
  | .syncSearching => Sys2Proof.Machine.execSyncSearching s
  | .syncSynced => Sys2Proof.Machine.execSyncSynced s
  | .phaseMid => Sys2Proof.Machine.execPhaseMid s
  | .phaseBoundary => Sys2Proof.Machine.execPhaseBoundary s
  | .causePinDriveFailure => Sys2Proof.Machine.execCausePinDriveFailure s
  | .causeBitSlip => Sys2Proof.Machine.execCauseBitSlip s
  | .causeFramingStart => Sys2Proof.Machine.execCauseFramingStart s
  | .causeFramingStop => Sys2Proof.Machine.execCauseFramingStop s
  | .causePhaseViolation => Sys2Proof.Machine.execCausePhaseViolation s
  | .causeTsOrder => Sys2Proof.Machine.execCauseTsOrder s
  | .causeWriteAfterClose p => Sys2Proof.Machine.execCauseWriteAfterClose p s
  | .causeCloseReleaseFailure => Sys2Proof.Machine.execCauseCloseReleaseFailure s

end Sys2Proof.Machine
end

