-- ==== Sys2Proof/Machine/Fetch.lean ====
section
/-! DEFINITION. What drives a step: the next stimulus, and what it makes the machine do (log entries 1 and 3). -/

namespace Sys2Proof.Machine

/-- The next stimulus and those after it; when none is loaded, a cycle in which no input is driven (log entry 3). -/
def nextStimulus (s : State) : Stimulus × List Stimulus :=
  match s.stim with
  | [] => (.ports PortIn.quiet, [])
  | x :: rest => (x, rest)

/-- One stimulus: an operation word is decoded and has its meaning; a port sample makes one cycle of `clk`. -/
def runStimulus (x : Stimulus) (s : State) : Out :=
  match x with
  | .word w =>
    match decode w with
    | .ok i => exec i s
    | .error e => .refused (.undecodable e)
  | .ports inp => .next (clkCycle inp s)

/-- One step: the next stimulus, in the state whose strobes are those of no event yet. A configuration the spec refuses is
refused (93_implementation_defined.md section 3, log entry 18). -/
def stepStimulus (s : State) : Out :=
  if s.cfg.sane then runStimulus (nextStimulus s).1 (beginStep (nextStimulus s).2 s)
  else .refused .illegalConfig

/-- The output ports in the cycle, or during the operation, that the next step runs (10_state.md R24). -/
def stepOutputs (s : State) : Option Outputs :=
  match stepStimulus s with
  | .next t => some (outputs s t)
  | .fault _ => none
  | .refused _ => none

/-- The state with `w` as its next stimulus. -/
def loadWord (w : OpWord) (s : State) : State := { s with stim := .word w :: s.stim }

end Sys2Proof.Machine
end

