-- ==== Sys2Proof/Machine/Step.lean ====
section
/-! DEFINITION. The step of the machine, and a bare word of the opcode table placed where the step takes its next stimulus. -/

namespace Sys2Proof.Machine

/-- One step. -/
def step (s : State) : Host.Outcome State Fault Refusal := stepStimulus s

/-- `s` with the bare word of the opcode table as its next stimulus (log entries 3 and 5). -/
def State.withFetchWord (s : State) (nbits w : Nat) : State := loadWord (tableWord nbits w) s

end Sys2Proof.Machine
end

