-- ==== Sys2Proof/Safety.lean ====
section
/-! DEFINITION. What the claims speak of: the invariant of the states that runs reach, runs of operations and of cycles, what
is still to be sent, and the edges a line gives. -/

namespace Sys2Proof.Machine

/-! ### The invariant -/

/-- What holds after reset and is kept by every step; each field names the rule it comes from. -/
structure CoreInv (s : State) : Prop where
  /-- The configuration is not one the spec refuses (93_implementation_defined.md section 3). -/
  sane            : s.cfg.sane = true
  /-- `div` in `0 .. HALF - 1` (10_state.md R27). -/
  div_bound       : s.div < s.cfg.half
  /-- `QLen() <= QDEPTH` (42_queue_arbiter.md R141). -/
  queue_bound     : s.q.length ≤ s.cfg.qdepth
  /-- Only framed units and preamble units enter the queue (30_encoding.md R94, R108). -/
  queue_units     : ∀ u ∈ s.q, u.creatable = true
  /-- The owner has a port (10_state.md R29), and a burst is open in `RUN` only (43_encoder.md R185). -/
  owner_port      : ∀ p, s.owner = some p → p < s.cfg.nprod ∧ s.encMode = .run
  /-- `pre_left` in `0 .. 2` (10_state.md R30). -/
  pre_bound       : s.preLeft ≤ 2
  /-- Preamble units are owed to an open burst only (10_state.md R30). -/
  pre_owner       : s.owner = none → s.preLeft = 0
  /-- One count for each producer (10_state.md R31). -/
  count_ports     : s.wrCount.length = s.cfg.nprod
  /-- One error bit for each producer (10_state.md R32). -/
  err_ports       : s.wrErr.length = s.cfg.nprod
  /-- One done strobe for each producer (10_state.md R24). -/
  done_ports      : s.wrDone.length = s.cfg.nprod
  /-- `wr_err[p]` is set by a close only, and no grant follows a close (60_exceptions.md R245). -/
  err_closed      : ∀ p, s.wrErr.getD p false = true → s.encMode ≠ .run
  /-- `close_done` is 1 exactly in `STOPPED` (10_state.md R38). -/
  done_stopped    : s.closeDone = true ↔ s.encMode = .stopped
  /-- The clock is released exactly in `STOPPED` (10_state.md R26). -/
  clock_stopped   : s.clkRun = false ↔ s.encMode = .stopped
  /-- In `STOPPED` everything is sent (10_state.md R33). -/
  drained_stopped : s.encMode = .stopped → s.q = [] ∧ s.busy = false
  /-- In a unit, `pos` is the next half-bit and `tx` holds the one before it (10_state.md R21, R34, R36). -/
  unit_in_flight  : s.busy = true → 1 ≤ s.pos ∧ s.pos < nhalves s.cur ∧ s.cur.creatable = true ∧
                      s.tx = halflevel s.cur (s.pos - 1)
  /-- Between units the position is 0 and the line rests `Low` (30_encoding.md R99, 43_encoder.md R175). -/
  idle_line       : s.busy = false → s.pos = 0 ∧ s.tx = .low
  /-- While searching, `phase`, `slot` and `shreg` hold their initial values (44_decoder.md R207). -/
  searching_clear : s.sync = .searching → s.phase = .mid ∧ s.slot = 0 ∧ s.shreg = 0x00
  /-- `slot` in `0 .. 9` (10_state.md R45). -/
  slot_bound      : s.slot ≤ 9
  /-- Before the first edge nothing is counted and nothing is locked (44_decoder.md R202). -/
  before_edge     : s.haveLast = false → s.sync = .searching ∧ s.run = 0
  /-- `run` saturates at `RUN_MAX` (10_state.md R44). -/
  run_bound       : ∀ m, s.cfg.runMax = some m → s.run ≤ m
  /-- The codes 2 to 6 are the only ones on `rx_errs` (60_exceptions.md R241). -/
  errs_decoder    : ∀ c ∈ s.rxErrs, c.isDecoder = true

/-! ### Runs -/

/-- Operations one after the other, stopping at the first that does not answer a next state. -/
def execAll : List Instr → State → Out
  | [], s => .next s
  | i :: is, s =>
    match exec i s with
    | .next t => execAll is t
    | .fault r => .fault r
    | .refused r => .refused r

/-- `n` cycles of `clk`, the cycle `k` of the run with the sample `inps k`. -/
def runCycles (inps : Nat → PortIn) : Nat → State → State
  | 0, s => s
  | n + 1, s => clkCycle (inps n) (runCycles inps n s)

/-! ### What is still to be sent, and what the line shows -/

/-- The half-bit levels still to be set: the rest of the unit in flight, then every queued unit (43_encoder.md R186). -/
def pendingLevels (s : State) : List Level :=
  (if s.busy then (unitLevels s.cur).drop s.pos else []) ++ lineLevels s.q

/-- The operation that presents an edge (44_decoder.md R201). -/
def edgeInstr : Dir → Nat → Instr
  | .rising, ts => .edgeR ts
  | .falling, ts => .edgeF ts

/-- The row that delivers a bit at a slot (44_decoder.md R201). -/
def deliverInstr (slot : Nat) (b : Bool) : Instr :=
  if slot = 0 then .deliverStart b else if slot ≤ 8 then .deliverData b else .deliverStop b

/-- What the decoder writes: its elements, its two output sequences and their strobes (44_decoder.md R200, 10_state.md R40 to
R47). -/
def decoderPart (s : State) :
    Sync × Bool × Nat × Phase × Nat × Nat × Byte × List Byte × List Cause × Option Byte × Option Cause :=
  (s.sync, s.haveLast, s.lastTs, s.phase, s.run, s.slot, s.shreg, s.rxBytes, s.rxErrs, s.rxEmit, s.rxErr)

/-- The direction of the change to a level (30_encoding.md R100). -/
def dirTo : Level → Dir
  | .high => .rising
  | .low => .falling

/-- The edges of a line that stood at `prev` and then shows one level for each half-bit, the change to the first of them at
half-bit `k`: the direction of each change and the number of its half-bit (70_reset_and_hazards.md R303). -/
def lineEdges (prev : Level) (k : Nat) : List Level → List (Dir × Nat)
  | [] => []
  | l :: ls => if l = prev then lineEdges l (k + 1) ls else (dirTo l, k) :: lineEdges l (k + 1) ls

/-- The timestamps `stamp` of the half-bits at which the edges stand do not decrease and keep every interval within the
tolerance of its nominal length, a whole number of half-bits (44_decoder.md R221). -/
def WithinTolerance (c : Params) (stamp : Nat → Nat) : List (Dir × Nat) → Prop
  | [] => True
  | [_] => True
  | e :: f :: rest =>
    stamp e.2 ≤ stamp f.2 ∧ within (stamp f.2 - stamp e.2) ((f.2 - e.2) * c.half) c.tol = true ∧
      WithinTolerance c stamp (f :: rest)

/-- How far the encoder's life cycle has gone (60_exceptions.md R254). -/
def modeRank : EncMode → Nat
  | .run => 0
  | .closing => 1
  | .stopped => 2

end Sys2Proof.Machine
end

