-- ==== Sys2Proof/Certificates/Slice0/Obligations.lean ====
section
/-! DEFINITION. The statements. Each docstring names the rule or the section of spec/ it formalises; a clause that rests on a
choice of the model names the log entry. A result statement gives the whole next state as a record update of the state before,
so every element it does not name is unchanged. -/

open Sys2Proof Sys2Proof.Machine

/-! ### Words -/

/-- Every well-formed operation of every row is read back from its own word, whatever its operands (30_encoding.md sections 1 to
6; the bytes of rows without bits are the model's, log entry 4). -/
def Obligations.DecodeOfEncode : Prop :=
  ∀ i : Instr, i.wellFormed = true → decode (encode i) = .ok i

/-- A word has at most one meaning and an operation at most one word: what decodes is well-formed and encodes to that word
(30_encoding.md sections 1 and 8; log entry 4). -/
def Obligations.EncodeOfDecode : Prop :=
  ∀ (w : OpWord) (i : Instr), decode w = .ok i → i.wellFormed = true ∧ encode i = w

/-- A few words written out from the spec's encodings decode to their rows, and a symbol word with a bit above the two is refused
(30_encoding.md R92, R94, R95, R96, R101; 60_exceptions.md R241). That the first logical bit stands in bit 0, how the ten bits of
a framed unit and the units of a burst fill bytes, and the refusal of the bits above a format's width are the model's (log entry
4). -/
def Obligations.SpecWordsDecode : Prop :=
  decode { fmt := .sym, bytes := [0b01] } = .ok .sym0 ∧
  decode { fmt := .sym, bytes := [0b10] } = .ok .sym1 ∧
  decode { fmt := .unitF, bytes := [0b10000010, 0b10] } = .ok (.unitF 0x41) ∧
  decode { fmt := .unitU, bytes := [0xFF] } = .ok .preamble ∧
  decode { fmt := .qe9, bytes := [0xFF, 0b0] } = .ok .qePreamble ∧
  decode { fmt := .qe9, bytes := [0x41, 0b1] } = .ok (.qeFramed 0x41) ∧
  decode { fmt := .burst, bytes := [0xFF, 0, 0xFF, 0, 0x41, 1] } = .ok (.burst [0x41]) ∧
  decode { fmt := .cause, bytes := [2] } = .ok .causeBitSlip ∧
  decode { fmt := .sym, bytes := [4] } = .error .reservedBits

/-! ### The step -/

/-- When the next stimulus is a word that decodes to `i`, the step is the meaning of `i` in the state with that stimulus taken
and the strobes of the step before gone (00_scope.md section 4; the stimuli are the model's, log entry 3). -/
def Obligations.StepRunsDecodedWord : Prop :=
  ∀ (s : State) (w : OpWord) (rest : List Stimulus) (i : Instr),
    s.cfg.sane = true → s.stim = .word w :: rest → decode w = .ok i →
    step s = exec i { s with stim := rest, txSet := false, wrDone := List.replicate s.cfg.nprod false,
                             rxEmit := none, rxErr := none, freeCount := s.freeCount + 1 }

/-- When the next stimulus is a port sample the step is one cycle with it, and with no stimulus a cycle with no input driven
(60_exceptions.md section 3; log entry 3). The step stops on a configuration the spec refuses and on a word that is no operation
(93_implementation_defined.md section 3; log entries 4 and 18). -/
def Obligations.StepRunsCycleOrStops : Prop :=
  ∀ (s : State) (inp : PortIn) (w : OpWord) (rest : List Stimulus) (e : DecodeError),
    let z : State := { s with stim := rest, txSet := false, wrDone := List.replicate s.cfg.nprod false,
                              rxEmit := none, rxErr := none, freeCount := s.freeCount + 1 }
    (s.cfg.sane = true → s.stim = .ports inp :: rest → step s = .next (clkCycle inp z)) ∧
    (s.cfg.sane = true → s.stim = [] → rest = [] → step s = .next (clkCycle PortIn.quiet z)) ∧
    (s.cfg.sane = true → s.stim = .word w :: rest → decode w = .error e → step s = .refused (.undecodable e)) ∧
    (s.cfg.half = 0 ∨ s.cfg.qdepth = 0 ∨ s.cfg.nprod = 0 → step s = .refused .illegalConfig)

/-! ### Reset and the invariant -/

/-- RESET gives every element of the core its reset value, whatever the state before; a cycle with `rst = 1` does exactly that,
whatever its other inputs. The parameters stay, the strobes are 0 (70_reset_and_hazards.md R280). -/
def Obligations.ResetSetsEveryElement : Prop :=
  ∀ (s : State) (inp : PortIn), inp.rst = true →
    ∃ t, exec .reset s = .next t ∧ clkCycle inp s = t ∧ t.cfg = s.cfg ∧
      t.clkRun = true ∧ t.div = 0 ∧ t.q = [] ∧ t.owner = none ∧ t.preLeft = 0 ∧
      t.wrCount = List.replicate s.cfg.nprod 0 ∧ t.wrErr = List.replicate s.cfg.nprod false ∧
      t.encMode = .run ∧ t.busy = false ∧ t.cur = { framed := false, payload := 0x00 } ∧ t.pos = 0 ∧ t.tx = .low ∧
      t.closeDone = false ∧ t.drvErrSticky = false ∧ t.sync = .searching ∧ t.haveLast = false ∧ t.lastTs = 0 ∧
      t.phase = .mid ∧ t.run = 0 ∧ t.slot = 0 ∧ t.shreg = 0x00 ∧ t.txLog = [] ∧ t.rxBytes = [] ∧ t.rxErrs = [] ∧
      t.txSet = false ∧ t.wrDone = List.replicate s.cfg.nprod false ∧ t.rxEmit = none ∧ t.rxErr = none

/-- The state after reset of every configuration the spec does not refuse satisfies the invariant, `State.reset` among them
(70_reset_and_hazards.md section 1). -/
def Obligations.ResetMeetsInvariant : Prop :=
  (∀ c : Params, c.sane = true → CoreInv (State.resetWith c)) ∧ CoreInv State.reset

/-- Every step keeps the invariant, from every state that has it, whatever the stimulus: any word, any port sample, none
(10_state.md sections 3 to 7; 42_queue_arbiter.md section 2; 43_encoder.md section 2; 44_decoder.md section 2). -/
def Obligations.StepKeepsInvariant : Prop :=
  ∀ s t : State, CoreInv s → step s = .next t → CoreInv t

/-! ### Clock -/

/-- CLKSTEP counts the divider up to `HALF - 1` and back to 0 while the clock runs, and does nothing when it does not
(40_clock.md R121). -/
def Obligations.ClkstepCountsDivider : Prop :=
  ∀ s : State,
    (s.clkRun = true → s.div = s.cfg.half - 1 → exec .clkstep s = .next { s with div := 0 }) ∧
    (s.clkRun = true → s.div ≠ s.cfg.half - 1 → exec .clkstep s = .next { s with div := s.div + 1 }) ∧
    (s.clkRun = false → exec .clkstep s = .next s) ∧
    (∀ inp : PortIn, inp.rst = false → (clkCycle inp s).div =
      if s.clkRun then (if s.div = s.cfg.half - 1 then 0 else s.div + 1) else s.div)

/-- From reset, with any inputs but `rst`, as long as the clock runs: in cycle `n` the divider is `n mod HALF` and
`n div HALF` ticks have taken place, so tick `k` takes place in cycle `(k + 1) * HALF - 1` (40_clock.md section on R122,
70_reset_and_hazards.md section 4). -/
def Obligations.TicksAreHalfApart : Prop :=
  ∀ (c : Params) (inps : Nat → PortIn), c.sane = true → (∀ k, (inps k).rst = false) →
    ∀ n, (runCycles inps n (State.resetWith c)).clkRun = true →
      (runCycles inps n (State.resetWith c)).cycle = n ∧
      (runCycles inps n (State.resetWith c)).div = n % c.half ∧
      (runCycles inps n (State.resetWith c)).ticks = n / c.half

/-! ### Encoder -/

/-- A tick with a unit in flight sets exactly the next half-bit, logs it, records a driver failure in the sticky bit alone, and
ends the unit after its last half-bit (43_encoder.md section 2). -/
def Obligations.TickSetsNextHalf : Prop :=
  ∀ (fail : Bool) (s : State), s.clkRun = true → s.div = s.cfg.half - 1 → s.busy = true → s.pos < nhalves s.cur →
    exec (.tick fail) s = .next
      { s with tx := halflevel s.cur s.pos, txLog := s.txLog ++ [halflevel s.cur s.pos], txSet := true,
               drvErrSticky := s.drvErrSticky || fail,
               busy := decide (s.pos + 1 < nhalves s.cur),
               pos := if s.pos + 1 < nhalves s.cur then s.pos + 1 else 0,
               ticks := s.ticks + 1 }

/-- A tick of an encoder that is not busy takes the head of the queue and sets its half-bit 0 in the same tick (43_encoder.md
section 2). -/
def Obligations.TickDequeuesHead : Prop :=
  ∀ (fail : Bool) (u : TxUnit) (rest : List TxUnit) (s : State),
    s.clkRun = true → s.div = s.cfg.half - 1 → s.busy = false → s.q = u :: rest →
    exec (.tick fail) s = .next
      { s with q := rest, cur := u, tx := halflevel u 0, txLog := s.txLog ++ [halflevel u 0], txSet := true,
               drvErrSticky := s.drvErrSticky || fail, busy := true, pos := 1, ticks := s.ticks + 1 }

/-- An idle tick in `RUN` changes nothing of the core, whatever the driver answers, and the line rests `Low`: the model's count
of ticks `n` is its own (43_encoder.md R173). -/
def Obligations.IdleTickChangesNothing : Prop :=
  ∀ (fail : Bool) (s : State),
    s.clkRun = true → s.div = s.cfg.half - 1 → s.busy = false → s.q = [] → s.encMode = .run →
    (∃ n, exec (.tick fail) s = .next { s with ticks := n }) ∧ (CoreInv s → s.tx = .low)

/-- A tick that finds the close drained completes it and sets no level (43_encoder.md section 2). A TICK presented when it is not
due does not take place and changes nothing: the model's reading of the event's condition (40_clock.md section on R122; log entry
6). -/
def Obligations.TickCompletesClose : Prop :=
  ∀ (fail : Bool) (s : State),
    (s.clkRun = true → s.div = s.cfg.half - 1 → s.busy = false → s.q = [] → s.encMode = .closing →
      exec (.tick fail) s = .next
        { s with encMode := .stopped, clkRun := false, closeDone := true, ticks := s.ticks + 1 }) ∧
    (s.clkRun = false ∨ s.div ≠ s.cfg.half - 1 → exec (.tick fail) s = .next s)

/-- A driver failure changes exactly the sticky bit: as the answer to a tick's level set, a tick that sets no level ignoring it
and `close_err` staying 0 (60_exceptions.md section 1, 43_encoder.md section 2); and as the cause row presented by itself, which in
the model takes its effect in every state (log entry 15). -/
def Obligations.DriverFailureSetsStickyOnly : Prop :=
  (∀ s : State, exec .causePinDriveFailure s = .next { s with drvErrSticky := true }) ∧
  (∀ s t : State, exec (.tick false) s = .next t →
    exec (.tick true) s = .next { t with drvErrSticky :=
      t.drvErrSticky || (s.clkRun && s.div == s.cfg.half - 1 && (s.busy || !s.q.isEmpty)) }) ∧
  (∀ s t : State, (outputs s t).closeErr = false)

/-- CLOSE in `RUN` stops accepting writes and cuts the open burst of `p`, whose count stays; elsewhere it has no effect
(43_encoder.md section 4). -/
def Obligations.CloseCutsOpenBurst : Prop :=
  ∀ s : State,
    (s.encMode = .run → s.owner = none →
      exec .close s = .next { s with encMode := .closing, owner := none, preLeft := 0 }) ∧
    (∀ p, s.encMode = .run → s.owner = some p →
      exec .close s = .next { s with encMode := .closing, owner := none, preLeft := 0,
                                     wrErr := s.wrErr.set p true, wrDone := s.wrDone.set p true }) ∧
    (s.encMode ≠ .run → exec .close s = .next s)

/-- The drain guarantee: from any state of the invariant in which a close was accepted, with any inputs but `rst`, the `N` levels
still to be set (the rest of the unit in flight, then every queued unit) are appended to the log in order at `N` consecutive
ticks, nothing else is, and the close completes at the tick after the last of them, not one cycle earlier (43_encoder.md R186). -/
def Obligations.CloseDrainsAndCompletes : Prop :=
  ∀ (s : State) (inps : Nat → PortIn), CoreInv s → s.encMode = .closing → (∀ k, (inps k).rst = false) →
    let n := (pendingLevels s).length * s.cfg.half + (s.cfg.half - s.div)
    (runCycles inps n s).closeDone = true ∧
    (runCycles inps n s).encMode = .stopped ∧
    (runCycles inps n s).txLog = s.txLog ++ pendingLevels s ∧
    ∀ m, m < n → (runCycles inps m s).closeDone = false ∧
      (runCycles inps m s).txLog = s.txLog ++ (pendingLevels s).take ((m + s.div) / s.cfg.half)

/-! ### Write arbiter -/

/-- WOPEN changes no state. WGRANT opens a burst: the owner, two preamble units owed, the producer's count and error bit
cleared, nothing pushed (42_queue_arbiter.md section 3). -/
def Obligations.GrantOpensBurst : Prop :=
  ∀ (p : Nat) (s : State), p < s.cfg.nprod →
    exec (.wopen p) s = .next s ∧
    (s.encMode = .run → s.owner = none →
      exec (.wgrant p) s = .next { s with owner := some p, preLeft := 2, wrCount := s.wrCount.set p 0,
                                          wrErr := s.wrErr.set p false })

/-- WPRE pushes one preamble unit, which no count counts; WBYTE pushes the payload byte as a framed unit and counts it
(42_queue_arbiter.md section 3). -/
def Obligations.PushesOfABurst : Prop :=
  ∀ (p : Nat) (b : Byte) (s : State), p < s.cfg.nprod → s.encMode = .run → s.owner = some p →
    s.q.length < s.cfg.qdepth →
    (0 < s.preLeft → exec .wpre s = .next
      { s with q := s.q ++ [{ framed := false, payload := 0xFF }], preLeft := s.preLeft - 1 }) ∧
    (s.preLeft = 0 → exec (.wbyte p b) s = .next
      { s with q := s.q ++ [{ framed := true, payload := b }],
               wrCount := s.wrCount.set p (s.wrCount.getD p 0 + 1) })

/-- WEND releases the grant and pulses `wr_done[p]`, the result of the call staying; WREFUSE after a close gives count 0, the
error bit and the pulse, nothing being pushed. A cycle without `rst` does the first when the owner's request is down and no close
is requested, and the second for every request that is not the owner's when `enc_mode` is not `RUN` (42_queue_arbiter.md section
3, 30_encoding.md section 7). -/
def Obligations.CallEndsOrIsRefused : Prop :=
  ∀ (p : Nat) (s : State), p < s.cfg.nprod →
    (s.encMode = .run → s.owner = some p → s.preLeft = 0 →
      exec (.wend p) s = .next { s with owner := none, wrDone := s.wrDone.set p true }) ∧
    (s.encMode ≠ .run → s.owner ≠ some p →
      exec (.wrefuse p) s = .next { s with wrCount := s.wrCount.set p 0, wrErr := s.wrErr.set p true,
                                           wrDone := s.wrDone.set p true }) ∧
    (∀ inp : PortIn, CoreInv s → inp.rst = false →
      let t := clkCycle inp s
      (s.encMode = .run → s.owner = some p → s.preLeft = 0 → inp.wrReq.getD p false = false → inp.closeReq = false →
        t.owner = none ∧ t.wrDone.getD p false = true ∧ t.wrCount.getD p 0 = s.wrCount.getD p 0 ∧
        t.wrErr.getD p false = s.wrErr.getD p false) ∧
      (s.encMode ≠ .run → inp.wrReq.getD p false = true →
        t.wrCount.getD p 0 = 0 ∧ t.wrErr.getD p false = true ∧ t.wrDone.getD p false = true))

/-- An arbiter event whose condition does not hold does not take place: no grant while a burst is open, no push into a full
queue, no byte and no end before both preamble units, no arbiter event but a refusal after a close (42_queue_arbiter.md
sections 2 and 3; log entry 6). An event of a producer without a port is a fault (log entry 17). -/
def Obligations.ArbiterEventsHeldOff : Prop :=
  ∀ (p : Nat) (b : Byte) (s : State),
    (s.encMode ≠ .run ∨ s.owner = none ∨ s.preLeft = 0 ∨ s.cfg.qdepth ≤ s.q.length → exec .wpre s = .next s) ∧
    (p < s.cfg.nprod →
      (s.encMode ≠ .run ∨ s.owner ≠ none → exec (.wgrant p) s = .next s) ∧
      (s.encMode ≠ .run ∨ s.owner ≠ some p ∨ 0 < s.preLeft ∨ s.cfg.qdepth ≤ s.q.length →
        exec (.wbyte p b) s = .next s) ∧
      (s.encMode ≠ .run ∨ s.owner ≠ some p ∨ 0 < s.preLeft → exec (.wend p) s = .next s) ∧
      (s.encMode = .run ∨ s.owner = some p → exec (.wrefuse p) s = .next s)) ∧
    (s.cfg.nprod ≤ p →
      ∀ i ∈ [Instr.wopen p, .wgrant p, .wbyte p b, .wend p, .wrefuse p, .causeWriteAfterClose p],
        exec i s = .fault (.noSuchProducer p))

/-- One undisturbed call from grant to end pushes exactly `P, P, F(b[0]), ..., F(b[n-1])` behind what the queue held, counts `n`
bytes, sets no error and frees the arbiter; the empty call pushes the two preamble units (42_queue_arbiter.md section 3,
30_encoding.md sections 5 and 10). -/
def Obligations.CallEnqueuesBurst : Prop :=
  ∀ (p : Nat) (bs : List Byte) (s : State), CoreInv s → p < s.cfg.nprod → s.encMode = .run → s.owner = none →
    s.q.length + 2 + bs.length ≤ s.cfg.qdepth →
    execAll (.wgrant p :: .wpre :: .wpre :: (bs.map (Instr.wbyte p) ++ [.wend p])) s = .next
      { s with q := s.q ++ burstUnits bs, owner := none, preLeft := 0, wrCount := s.wrCount.set p bs.length,
               wrErr := s.wrErr.set p false, wrDone := s.wrDone.set p true }

/-- The grant of a cycle without `rst`: when one can be given, is not overtaken by a close and some producer requests, exactly
one requesting producer becomes the owner with two preamble units owed, its count and error bit cleared, and each of them does
for some pick (42_queue_arbiter.md section 3; the pick is an input, log entry 20). -/
def Obligations.SomeRequesterIsGranted : Prop :=
  ∀ (inp : PortIn) (s : State), inp.rst = false → s.encMode = .run → s.owner = none → inp.closeReq = false →
    (∃ p, p < s.cfg.nprod ∧ inp.wrReq.getD p false = true) →
    (∃ p, p < s.cfg.nprod ∧ inp.wrReq.getD p false = true ∧
      (clkCycle inp s).owner = some p ∧ (clkCycle inp s).preLeft = 2 ∧
      (clkCycle inp s).wrCount = s.wrCount.set p 0 ∧ (clkCycle inp s).wrErr = s.wrErr.set p false) ∧
    (∀ p, p < s.cfg.nprod → inp.wrReq.getD p false = true →
      ∃ k, (clkCycle { inp with pick := k } s).owner = some p ∧ (clkCycle { inp with pick := k } s).preLeft = 2)

/-! ### One cycle -/

/-- A cycle without `rst` is one schedule of the event-level machine: its events, each run by its own meaning one after the other,
give the same state, the divider's step of the same cycle apart (00_scope.md section 4, 60_exceptions.md section 3; the place of
TICK before CLOSE is log entry 7). Those events are exactly the ones whose conditions hold on the state at the start of the cycle
and on its sample (30_encoding.md section 7), a requesting producer being picked for WGRANT (log entry 20). The decoder's part
of the state after the cycle is that after the sampled edge, `edge_dir = 1` being `RISING`, and without an edge that before. -/
def Obligations.CycleIsScheduleOfEvents : Prop :=
  ∀ (inp : PortIn) (s : State), CoreInv s → inp.rst = false →
    (∃ t, execAll (sampledEvents inp s) s = .next t ∧
      clkCycle inp s = { t with div := (clkCycle inp s).div, cycle := s.cycle + 1 }) ∧
    (∀ i, i ∈ sampledEvents inp s → i = .tick inp.drvErr ∨ i = .close ∨ i = .wpre ∨
      (∃ p, i = .wgrant p ∨ i = .wbyte p (inp.wrData.getD p 0) ∨ i = .wend p ∨ i = .wrefuse p) ∨
      i = .edgeR inp.edgeTs ∨ i = .edgeF inp.edgeTs) ∧
    (.tick inp.drvErr ∈ sampledEvents inp s ↔ s.clkRun = true ∧ s.div = s.cfg.half - 1) ∧
    (.close ∈ sampledEvents inp s ↔ inp.closeReq = true ∧ s.encMode = .run) ∧
    (.wpre ∈ sampledEvents inp s ↔ s.encMode = .run ∧ inp.closeReq = false ∧ s.owner ≠ none ∧ 0 < s.preLeft ∧
      s.q.length < s.cfg.qdepth) ∧
    (∀ p, .wgrant p ∈ sampledEvents inp s → s.encMode = .run ∧ inp.closeReq = false ∧ s.owner = none ∧
      p < s.cfg.nprod ∧ inp.wrReq.getD p false = true) ∧
    (∀ p, .wbyte p (inp.wrData.getD p 0) ∈ sampledEvents inp s ↔ s.encMode = .run ∧ inp.closeReq = false ∧
      s.owner = some p ∧ s.preLeft = 0 ∧ inp.wrReq.getD p false = true ∧ inp.wrValid.getD p false = true ∧
      s.q.length < s.cfg.qdepth) ∧
    (∀ p, .wend p ∈ sampledEvents inp s ↔ s.encMode = .run ∧ inp.closeReq = false ∧ s.owner = some p ∧
      s.preLeft = 0 ∧ inp.wrReq.getD p false = false) ∧
    (∀ p, .wrefuse p ∈ sampledEvents inp s ↔ p < s.cfg.nprod ∧ inp.wrReq.getD p false = true ∧ s.owner ≠ some p ∧
      (s.encMode ≠ .run ∨ inp.closeReq = true)) ∧
    (.edgeR inp.edgeTs ∈ sampledEvents inp s ↔ inp.edgeValid = true ∧ inp.edgeDir = true) ∧
    (.edgeF inp.edgeTs ∈ sampledEvents inp s ↔ inp.edgeValid = true ∧ inp.edgeDir = false) ∧
    (inp.edgeValid = true → ∃ e, exec (if inp.edgeDir then .edgeR inp.edgeTs else .edgeF inp.edgeTs) s = .next e ∧
      decoderPart (clkCycle inp s) = decoderPart e) ∧
    (inp.edgeValid = false → decoderPart (clkCycle inp s) = decoderPart s)

/-- A unit pushed into an empty queue in a tick's own cycle, a preamble unit or a payload byte, is not popped by that tick: the
tick idles and the unit waits for the next (20_memory.md section 8). -/
def Obligations.PushNotSeenBySameCycleTick : Prop :=
  ∀ (inp : PortIn) (s : State), CoreInv s → inp.rst = false → inp.closeReq = false → s.encMode = .run →
    s.q = [] → s.busy = false → s.div = s.cfg.half - 1 →
    let t := clkCycle inp s
    (s.owner ≠ none → 0 < s.preLeft →
      t.q = [{ framed := false, payload := 0xFF }] ∧ t.txLog = s.txLog ∧ t.busy = false) ∧
    (∀ p, s.owner = some p → s.preLeft = 0 → inp.wrReq.getD p false = true → inp.wrValid.getD p false = true →
      t.q = [{ framed := true, payload := inp.wrData.getD p 0 }] ∧ t.txLog = s.txLog ∧ t.busy = false)

/-- A close wins over the arbiter in its own cycle: nothing is pushed or granted, and a request that is not the owner's is
refused (60_exceptions.md section 3). -/
def Obligations.CloseWinsOverArbiter : Prop :=
  ∀ (inp : PortIn) (s : State), CoreInv s → inp.rst = false → inp.closeReq = true → s.encMode = .run →
    arbiterEvent inp s = none ∧ (clkCycle inp s).encMode = .closing ∧ (clkCycle inp s).owner = none ∧
    (∃ pre, pre ++ (clkCycle inp s).q = s.q) ∧
    (∀ p, p < s.cfg.nprod → inp.wrReq.getD p false = true → s.owner ≠ some p →
      (clkCycle inp s).wrCount.getD p 0 = 0 ∧ (clkCycle inp s).wrErr.getD p false = true ∧
      (clkCycle inp s).wrDone.getD p false = true)

/-! ### Decoder -/

/-- The first edge after reset gives the reference and nothing else, whatever its direction and timestamp (44_decoder.md
section 2). -/
def Obligations.FirstEdgeRecordsTime : Prop :=
  ∀ (d : Dir) (ts : Nat) (s : State), s.haveLast = false →
    ∀ i ∈ [edgeInstr d ts, .edgeFirst d ts],
      exec i s = .next { s with haveLast := true, lastTs := ts, run := 0 }

/-- Every edge answers a next state whose reference is this edge, whatever the class and the state; the next interval is
measured from it (44_decoder.md R204). -/
def Obligations.EveryEdgeSetsLast : Prop :=
  ∀ (d : Dir) (ts : Nat) (s : State), ∃ t, exec (edgeInstr d ts) s = .next t ∧ t.lastTs = ts ∧ t.haveLast = true ∧
    ∀ ts', ts ≤ ts' → edgeClass t ts' = classify s.cfg (ts' - ts)

/-- `SEARCHING`, `HALF_IV`: the run is counted, saturating at `RUN_MAX` where there is one, and nothing else changes but
`last_ts` (44_decoder.md R205, the saturation as section 2 says). -/
def Obligations.SearchingHalfCountsRun : Prop :=
  ∀ (d : Dir) (ts : Nat) (s : State), s.haveLast = true → s.sync = .searching → s.lastTs ≤ ts →
    classify s.cfg (ts - s.lastTs) = .halfIv →
    ∀ i ∈ [edgeInstr d ts, .edgeSHalf d ts],
      exec i s = .next { s with lastTs := ts, run := match s.cfg.runMax with
                                                     | none => s.run + 1
                                                     | some m => min (s.run + 1) m }

/-- `SEARCHING`, `FULL_IV`: a rising edge after at least `SYNC_RUN` half-bit intervals locks, the start bit consumed; any other
clears the run; no cause either way (44_decoder.md section 3). -/
def Obligations.SearchingFullLocks : Prop :=
  ∀ (d : Dir) (ts : Nat) (s : State), s.haveLast = true → s.sync = .searching → s.lastTs ≤ ts →
    classify s.cfg (ts - s.lastTs) = .fullIv →
    ∀ i ∈ [edgeInstr d ts, .edgeSFull d ts],
      (d = .rising → s.cfg.syncRun ≤ s.run →
        exec i s = .next { s with lastTs := ts, sync := .synced, phase := .mid, slot := 1, shreg := 0x00, run := 0 }) ∧
      (d = .falling ∨ s.run < s.cfg.syncRun → exec i s = .next { s with lastTs := ts, run := 0 })

/-- A `NEITHER` interval while searching clears the run and raises BIT_SLIP, or TS_ORDER when the timestamp decreased
(44_decoder.md R207). -/
def Obligations.SearchingNeitherReports : Prop :=
  ∀ (d : Dir) (ts : Nat) (s : State), s.haveLast = true → s.sync = .searching →
    (s.lastTs ≤ ts → classify s.cfg (ts - s.lastTs) = .neither →
      ∀ i ∈ [edgeInstr d ts, .edgeSNeither d ts],
        exec i s = .next { s with lastTs := ts, run := 0, rxErrs := s.rxErrs ++ [.bitSlip], rxErr := some .bitSlip }) ∧
    (ts < s.lastTs →
      ∀ i ∈ [edgeInstr d ts, .edgeTsOrder d ts, .edgeSNeither d ts],
        exec i s = .next { s with lastTs := ts, run := 0, rxErrs := s.rxErrs ++ [.tsOrder], rxErr := some .tsOrder })

/-- `SYNCED`, `HALF_IV`: after a mid-bit edge it is a boundary edge and carries no bit; after a boundary edge it is the mid-bit
edge and its bit is delivered; the run is counted either way, saturating at `RUN_MAX` where there is one (44_decoder.md R208, the
saturation as section 2 says). -/
def Obligations.SyncedHalfTracksPhase : Prop :=
  ∀ (d : Dir) (ts : Nat) (s : State), s.haveLast = true → s.sync = .synced → s.lastTs ≤ ts →
    classify s.cfg (ts - s.lastTs) = .halfIv → s.slot ≤ 9 →
    let run' := match s.cfg.runMax with
      | none => s.run + 1
      | some m => min (s.run + 1) m
    ∀ i ∈ [edgeInstr d ts, .edgeYHalf d ts],
      (s.phase = .mid → exec i s = .next { s with lastTs := ts, run := run', phase := .boundary }) ∧
      (s.phase = .boundary →
        exec i s = exec (deliverInstr s.slot (bitval d)) { s with lastTs := ts, run := run', phase := .mid })

/-- `SYNCED`, `FULL_IV`: after a mid-bit edge it is the next mid-bit edge: a start bit 0 opens the frame, a data bit is written
at its place, a stop bit 1 emits the byte, and in general its bit is delivered; after a boundary edge it is a phase violation
(44_decoder.md R213). -/
def Obligations.SyncedFullDeliversBit : Prop :=
  ∀ (d : Dir) (ts : Nat) (s : State), s.haveLast = true → s.sync = .synced → s.lastTs ≤ ts →
    classify s.cfg (ts - s.lastTs) = .fullIv → s.slot ≤ 9 →
    ∀ i ∈ [edgeInstr d ts, .edgeYFull d ts],
      (s.phase = .mid → s.slot = 0 → d = .rising →
        exec i s = .next { s with lastTs := ts, run := 0, slot := 1, shreg := 0x00 }) ∧
      (s.phase = .mid → s.slot = 9 → d = .falling →
        exec i s = .next { s with lastTs := ts, run := 0, slot := 0, rxBytes := s.rxBytes ++ [s.shreg],
                                  rxEmit := some s.shreg }) ∧
      (s.phase = .mid → exec i s = exec (deliverInstr s.slot (bitval d)) { s with lastTs := ts, run := 0 }) ∧
      (s.phase = .boundary →
        exec i s = .next { s with lastTs := ts, run := 0, sync := .searching, phase := .mid, slot := 0, shreg := 0x00,
                                  rxErrs := s.rxErrs ++ [.phaseViolation], rxErr := some .phaseViolation })

/-- A `NEITHER` interval while synced discards the partial byte, searches again and raises BIT_SLIP, or TS_ORDER when the
timestamp decreased; in a legal configuration an interval of 0 is such an interval (44_decoder.md R215). -/
def Obligations.SyncedNeitherResyncs : Prop :=
  ∀ (d : Dir) (ts : Nat) (s : State), s.haveLast = true → s.sync = .synced →
    (s.lastTs ≤ ts → classify s.cfg (ts - s.lastTs) = .neither ∨ (s.cfg.Legal ∧ ts = s.lastTs) →
      ∀ i ∈ [edgeInstr d ts, .edgeYNeither d ts],
        exec i s = .next { s with lastTs := ts, run := 0, sync := .searching, phase := .mid, slot := 0, shreg := 0x00,
                                  rxErrs := s.rxErrs ++ [.bitSlip], rxErr := some .bitSlip }) ∧
    (ts < s.lastTs →
      ∀ i ∈ [edgeInstr d ts, .edgeTsOrder d ts, .edgeYNeither d ts],
        exec i s = .next { s with lastTs := ts, run := 0, sync := .searching, phase := .mid, slot := 0, shreg := 0x00,
                                  rxErrs := s.rxErrs ++ [.tsOrder], rxErr := some .tsOrder })

/-- A row of format DECODE whose case the state and the interval do not select changes nothing, a decreasing timestamp selecting
neither of the two interval lengths (44_decoder.md sections 2 and 4; log entries 14 and 24). -/
def Obligations.UnselectedCaseChangesNothing : Prop :=
  ∀ (d : Dir) (b : Bool) (ts : Nat) (s : State),
    (s.haveLast = true → exec (.edgeFirst d ts) s = .next s) ∧
    (s.haveLast = false ∨ s.lastTs ≤ ts → exec (.edgeTsOrder d ts) s = .next s) ∧
    (∀ i ∈ [Instr.edgeSHalf d ts, .edgeSFull d ts, .edgeSNeither d ts],
      s.haveLast = false ∨ s.sync = .synced → exec i s = .next s) ∧
    (∀ i ∈ [Instr.edgeYHalf d ts, .edgeYFull d ts, .edgeYNeither d ts],
      s.haveLast = false ∨ s.sync = .searching → exec i s = .next s) ∧
    (s.lastTs ≤ ts →
      (∀ i ∈ [Instr.edgeSHalf d ts, .edgeYHalf d ts], classify s.cfg (ts - s.lastTs) ≠ .halfIv → exec i s = .next s) ∧
      (∀ i ∈ [Instr.edgeSFull d ts, .edgeYFull d ts], classify s.cfg (ts - s.lastTs) ≠ .fullIv → exec i s = .next s) ∧
      (∀ i ∈ [Instr.edgeSNeither d ts, .edgeYNeither d ts],
        classify s.cfg (ts - s.lastTs) ≠ .neither → exec i s = .next s)) ∧
    (ts < s.lastTs →
      ∀ i ∈ [Instr.edgeSHalf d ts, .edgeSFull d ts, .edgeYHalf d ts, .edgeYFull d ts], exec i s = .next s) ∧
    (s.sync = .searching → ∀ i ∈ [Instr.deliverStart b, .deliverData b, .deliverStop b], exec i s = .next s) ∧
    (s.slot ≠ 0 → exec (.deliverStart b) s = .next s) ∧
    (s.slot = 0 ∨ 8 < s.slot → exec (.deliverData b) s = .next s) ∧
    (s.slot ≠ 9 → exec (.deliverStop b) s = .next s)

/-- The bits of a frame. Start bit: a 0 opens the frame with a clear shift register, a 1 is a framing violation that
resynchronises and keeps the run. Data bit: written to bit `slot - 1`, every other bit stays, the slot advances. Stop bit: a 1
emits the byte and the next start bit is expected, a 0 is a framing violation and nothing is emitted (44_decoder.md R210, R211; the
stop bit as section 4 says). -/
def Obligations.BitsOfAFrameDelivered : Prop :=
  ∀ s : State, s.sync = .synced →
    (s.slot = 0 →
      exec (.deliverStart false) s = .next { s with slot := 1, shreg := 0x00 } ∧
      exec (.deliverStart true) s = .next
        { s with sync := .searching, phase := .mid, slot := 0, shreg := 0x00, rxErrs := s.rxErrs ++ [.framingStart],
                 rxErr := some .framingStart }) ∧
    (∀ b : Bool, 1 ≤ s.slot → s.slot ≤ 8 →
      ∃ v : Byte, exec (.deliverData b) s = .next { s with shreg := v, slot := s.slot + 1 } ∧
        ∀ j, j < 8 → v.getLsbD j = if j = s.slot - 1 then b else s.shreg.getLsbD j) ∧
    (s.slot = 9 →
      exec (.deliverStop true) s = .next
        { s with slot := 0, rxBytes := s.rxBytes ++ [s.shreg], rxEmit := some s.shreg } ∧
      exec (.deliverStop false) s = .next
        { s with sync := .searching, phase := .mid, slot := 0, shreg := 0x00, rxErrs := s.rxErrs ++ [.framingStop],
                 rxErr := some .framingStop })

/-- An edge never does two things a consumer sees: it emits at most one byte or reports at most one decoder cause, never both,
and while searching it emits nothing (44_decoder.md sections 2 and 3). -/
def Obligations.EdgeEmitsOrReportsOnce : Prop :=
  ∀ (d : Dir) (ts : Nat) (s t : State), exec (edgeInstr d ts) s = .next t →
    ((∃ v, t.rxBytes = s.rxBytes ++ [v] ∧ t.rxErrs = s.rxErrs ∧ s.sync = .synced ∧ t.sync = .synced) ∨
     (∃ c, t.rxErrs = s.rxErrs ++ [c] ∧ c.isDecoder = true ∧ t.rxBytes = s.rxBytes ∧ t.sync = .searching) ∨
     (t.rxBytes = s.rxBytes ∧ t.rxErrs = s.rxErrs))

/-- A burst of any bytes on a line that was `Low`, its edges stamped so that every interval is within the tolerance of its
nominal length, given to a decoder that has seen no edge yet: exactly those bytes come out, in order, and no cause is raised
(44_decoder.md section 6; for the first burst after reset). -/
def Obligations.FirstBurstRoundTrip : Prop :=
  ∀ (bs : List Byte) (k : Nat) (stamp : Nat → Nat) (s : State),
    s.cfg.Legal → s.haveLast = false → s.sync = .searching →
    let edges := lineEdges .low k (lineLevels (burstUnits bs))
    WithinTolerance s.cfg stamp edges →
    ∃ t, execAll (edges.map fun e => edgeInstr e.1 (stamp e.2)) s = .next t ∧
      t.rxBytes = s.rxBytes ++ bs ∧ t.rxErrs = s.rxErrs

/-- The decoder sees timestamps through their differences only: shifting every timestamp by the same amount changes no byte, no
cause and no element of the decoder but `last_ts` (44_decoder.md section 6). -/
def Obligations.UniformShiftChangesNothing : Prop :=
  ∀ (n : Nat) (edges : List (Dir × Nat)) (s t : State),
    execAll (edges.map fun e => edgeInstr e.1 e.2) s = .next t →
    execAll (edges.map fun e => edgeInstr e.1 (e.2 + n)) { s with lastTs := s.lastTs + n } =
      .next { t with lastTs := t.lastTs + n }

/-! ### Noninterference and whole-machine rules -/

/-- The two halves share no state. In a cycle without `rst` the decoder's next state depends on the decoder's state, the
parameters and the edge inputs alone: two cycles that agree there agree there after, whatever the queue, the encoder, the
producers and the closer do (00_scope.md section 4, 44_decoder.md section 1). -/
def Obligations.DecoderIgnoresTransmitSide : Prop :=
  ∀ (inp inp' : PortIn) (s s' : State), inp.rst = false → inp'.rst = false →
    inp.edgeValid = inp'.edgeValid → inp.edgeDir = inp'.edgeDir → inp.edgeTs = inp'.edgeTs → s.cfg = s'.cfg →
    (s.sync, s.haveLast, s.lastTs, s.phase, s.run, s.slot, s.shreg, s.rxBytes, s.rxErrs) =
      (s'.sync, s'.haveLast, s'.lastTs, s'.phase, s'.run, s'.slot, s'.shreg, s'.rxBytes, s'.rxErrs) →
    let t := clkCycle inp s
    let t' := clkCycle inp' s'
    (t.sync, t.haveLast, t.lastTs, t.phase, t.run, t.slot, t.shreg, t.rxBytes, t.rxErrs) =
      (t'.sync, t'.haveLast, t'.lastTs, t'.phase, t'.run, t'.slot, t'.shreg, t'.rxBytes, t'.rxErrs)

/-- The other direction: in a cycle without `rst` the transmit side does not depend on the decoder's state or the edge inputs
(00_scope.md section 4, 20_memory.md section 5). -/
def Obligations.TransmitSideIgnoresDecoder : Prop :=
  ∀ (inp inp' : PortIn) (s s' : State), inp.rst = false →
    inp' = { inp with edgeValid := inp'.edgeValid, edgeDir := inp'.edgeDir, edgeTs := inp'.edgeTs } →
    s' = { s with sync := s'.sync, haveLast := s'.haveLast, lastTs := s'.lastTs, phase := s'.phase, run := s'.run,
                  slot := s'.slot, shreg := s'.shreg, rxBytes := s'.rxBytes, rxErrs := s'.rxErrs,
                  rxEmit := s'.rxEmit, rxErr := s'.rxErr } →
    let t := clkCycle inp s
    let t' := clkCycle inp' s'
    t' = { t with sync := t'.sync, haveLast := t'.haveLast, lastTs := t'.lastTs, phase := t'.phase, run := t'.run,
                  slot := t'.slot, shreg := t'.shreg, rxBytes := t'.rxBytes, rxErrs := t'.rxErrs,
                  rxEmit := t'.rxEmit, rxErr := t'.rxErr }

/-- `enc_mode` only moves forward, in every operation but RESET (60_exceptions.md section 5). -/
def Obligations.ModeOnlyMovesForward : Prop :=
  ∀ (i : Instr) (s t : State), i ≠ .reset → exec i s = .next t → modeRank s.encMode ≤ modeRank t.encMode

/-- Nothing but RESET clears `close_done`, `drv_err_sticky` or `have_last`, sets `clk_run` or shortens an output sequence
(10_state.md sections 1, 3, 6 and 7; 70_reset_and_hazards.md section 1). -/
def Obligations.OnlyResetUndoes : Prop :=
  ∀ (i : Instr) (s t : State), i ≠ .reset → exec i s = .next t →
    (s.closeDone = true → t.closeDone = true) ∧ (s.drvErrSticky = true → t.drvErrSticky = true) ∧
    (s.haveLast = true → t.haveLast = true) ∧ (s.clkRun = false → t.clkRun = false) ∧
    (∃ l, t.txLog = s.txLog ++ l) ∧ (∃ l, t.rxBytes = s.rxBytes ++ l) ∧ (∃ l, t.rxErrs = s.rxErrs ++ l)

/-- `tx` has one writer: every operation but TICK and RESET leaves the pin and its log as they are, and TICK changes the pin
only by logging the level (10_state.md section 5, 60_exceptions.md section 5). -/
def Obligations.OnlyTickDrivesPin : Prop :=
  ∀ (i : Instr) (s t : State), i ≠ .reset → exec i s = .next t →
    (t.tx = s.tx ∧ t.txLog = s.txLog) ∨ (∃ fail, i = .tick fail ∧ t.txLog = s.txLog ++ [t.tx])

/-- No unit enters the queue after a close: every operation leaves the queue as it is or takes its head, while in `RUN` it may
also append one unit at the tail; no other access exists (20_memory.md sections 1 and 6, 42_queue_arbiter.md section 2). -/
def Obligations.QueueIsFifoAndClosed : Prop :=
  ∀ (i : Instr) (s t : State), i ≠ .reset → exec i s = .next t →
    t.q = s.q ∨ (∃ u, s.q = u :: t.q) ∨
      (s.encMode = .run ∧ s.q.length < s.cfg.qdepth ∧ ∃ u, t.q = s.q ++ [u])

/-- An open burst keeps its owner until its own end, a close or RESET, and no other producer's bytes enter the queue meanwhile
(20_memory.md section 7, 42_queue_arbiter.md section 4; a QPush row is no producer's, log entry 27). -/
def Obligations.BurstKeepsItsOwner : Prop :=
  ∀ (i : Instr) (p : Nat) (s t : State), CoreInv s → s.owner = some p → exec i s = .next t →
    (t.owner = some p ∨ (t.owner = none ∧ (i = .wend p ∨ i = .close ∨ i = .reset))) ∧
    (∀ p' b, i = .wbyte p' b → p' ≠ p → t = s)

/-- No operation but RESET clears the error bit of `p` except a grant to `p`; and every operation but RESET that is no event of
`p`'s own call, a close that cuts the burst of `p` among those, leaves the count and the error bit of `p` (60_exceptions.md
sections 1 and 5; the row CAUSE_WRITE_AFTER_CLOSE is log entry 15). -/
def Obligations.ErrorBitClearedByGrantOnly : Prop :=
  ∀ (i : Instr) (p : Nat) (s t : State), i ≠ .reset → exec i s = .next t →
    (s.wrErr.getD p false = true → t.wrErr.getD p false = true ∨ i = .wgrant p) ∧
    ((∀ b, i ∉ [.wgrant p, .wbyte p b, .wrefuse p, .causeWriteAfterClose p]) →
      (i = .close → s.owner ≠ some p) →
      t.wrCount.getD p 0 = s.wrCount.getD p 0 ∧ t.wrErr.getD p false = s.wrErr.getD p false)

/-! ### Formats, functions, codings -/

/-- The four pairs of half-bit levels: `LH` is the logical 0 with a rising mid-bit edge, `HL` the logical 1 with a falling one,
`LL` and `HH` are no symbols. The queue entries: the flag in bit 8, the byte in bits 7 to 0. Nothing of the core changes
(30_encoding.md sections 2, 3 and 8; the result is the model's, log entries 13 and 25). -/
def Obligations.SymbolsAndEntries : Prop :=
  ∀ (v : Byte) (s : State),
    exec .sym0 s = .next { s with result := .symbol .low .high (some false) (some .rising) } ∧
    exec .sym1 s = .next { s with result := .symbol .high .low (some true) (some .falling) } ∧
    exec .symLL s = .next { s with result := .symbol .low .low none none } ∧
    exec .symHH s = .next { s with result := .symbol .high .high none none } ∧
    exec .qePreamble s = .next { s with result := .entry 0x0FF { framed := false, payload := 0xFF } } ∧
    exec (.qeFramed v) s = .next
      { s with result := .entry (BitVec.ofNat 9 (256 + v.toNat)) { framed := true, payload := v } } ∧
    exec (.qeReserved v) s = .next
      { s with result := .entry (BitVec.ofNat 9 v.toNat) { framed := false, payload := v } }

/-- A unit on the line: start bit 0, the data bits least significant first, stop bit 1 when framed; the data bits alone when
not; each bit as its two half-bit levels (30_encoding.md section 3; log entry 13). -/
def Obligations.UnitsOnTheLine : Prop :=
  ∀ (v : Byte) (s : State),
    let data := [v.getLsbD 0, v.getLsbD 1, v.getLsbD 2, v.getLsbD 3, v.getLsbD 4, v.getLsbD 5, v.getLsbD 6, v.getLsbD 7]
    let cells := fun bits : List Bool => bits.flatMap fun b => if b then [Level.high, .low] else [.low, .high]
    exec (.unitF v) s = .next { s with result := .line (false :: data ++ [true]) (cells (false :: data ++ [true])) } ∧
    exec (.unitU v) s = .next { s with result := .line data (cells data) } ∧
    exec .preamble s = .next { s with result := .line (List.replicate 8 true) (cells (List.replicate 8 true)) }

/-- A burst is two preamble units and one framed unit for each byte, on the line the levels of those units in order and without a
gap, `32 + 20 * n` half-bits (30_encoding.md section 5; log entry 13). -/
def Obligations.BurstOnTheLine : Prop :=
  ∀ (bs : List Byte) (s : State),
    let cells := fun bits : List Bool => bits.flatMap fun b => if b then [Level.high, .low] else [.low, .high]
    let data := fun v : Byte =>
      [v.getLsbD 0, v.getLsbD 1, v.getLsbD 2, v.getLsbD 3, v.getLsbD 4, v.getLsbD 5, v.getLsbD 6, v.getLsbD 7]
    let levels := cells (List.replicate 16 true) ++ bs.flatMap fun v => cells (false :: data v ++ [true])
    exec (.burst bs) s = .next
      { s with result := .burst ({ framed := false, payload := 0xFF } :: { framed := false, payload := 0xFF } ::
                                   bs.map fun b => { framed := true, payload := b }) levels } ∧
    levels.length = 32 + 20 * bs.length

/-- `within` is the distance test over the integers, both bounds inside (41_classifier.md section on
`within`; log entry 13). -/
def Obligations.WithinIsDistance : Prop :=
  ∀ (v r tol : Nat) (s : State), ∃ b : Bool, exec (.within v r tol) s = .next { s with result := .truth b } ∧
    (b = true ↔ (r : Int) - tol ≤ v ∧ (v : Int) ≤ r + tol) ∧
    (b = true ↔ v ≤ r + tol ∧ r ≤ v + tol) ∧
    (tol = 0 → (b = true ↔ v = r)) ∧ (r ≤ tol → v ≤ r + tol → b = true)

/-- `classify` tries the half-bit reference, then the full bit; with `2 * TOL < HALF` the two windows are disjoint and 0 is in
neither (41_classifier.md on `classify` and the overlap of the windows; log entry 13). -/
def Obligations.ClassifyTriesHalfFirst : Prop :=
  ∀ (dt : Nat) (s : State), ∃ c : IvClass, exec (.classify dt) s = .next { s with result := .cls c } ∧
    (c = .halfIv ↔ within dt s.cfg.half s.cfg.tol = true) ∧
    (c = .fullIv ↔ within dt s.cfg.half s.cfg.tol = false ∧ within dt (2 * s.cfg.half) s.cfg.tol = true) ∧
    (2 * s.cfg.tol < s.cfg.half →
      ¬ (within dt s.cfg.half s.cfg.tol = true ∧ within dt (2 * s.cfg.half) s.cfg.tol = true) ∧ (dt = 0 → c = .neither))

/-- The line functions of a unit, with `halflevel(u, pos) = unit_bits(u)[pos div 2] xor (pos mod 2)` inside the unit, some level
outside it, and `nhalves(u)` twice the length of `unit_bits(u)`; and `bitval` (30_encoding.md section 3; 44_decoder.md section 4;
log entry 13; the level outside the unit is a free value, log entry 12). -/
def Obligations.LineFunctionValues : Prop :=
  ∀ (u : TxUnit) (pos : Nat) (s : State),
    exec (.unitBits u) s = .next { s with result := .bits (unitBits u) } ∧
    exec (.nhalves u) s = .next { s with result := .num (2 * (unitBits u).length) } ∧
    2 * (unitBits u).length = (if u.framed then 20 else 16) ∧
    (∃ l, exec (.halflevel u pos) s = .next { s with result := .level l } ∧
      (pos < 2 * (unitBits u).length → ∃ b, (unitBits u)[pos / 2]? = some b ∧
        (l = .high ↔ xor b (decide (pos % 2 = 1)) = true))) ∧
    exec (.bitval .rising) s = .next { s with result := .bit false } ∧
    exec (.bitval .falling) s = .next { s with result := .bit true }

/-- Every unit the arbiter can create ends `Low`; a framed one begins `Low`, the preamble unit `High`; so the line is `Low`
whenever the encoder is between units (30_encoding.md R99). -/
def Obligations.UnitsEndLow : Prop :=
  (∀ u : TxUnit, u.creatable = true →
    (unitLevels u).getLast? = some .low ∧ (unitLevels u).head? = some (if u.framed then .low else .high)) ∧
  (∀ s : State, CoreInv s → s.busy = false → s.tx = .low)

/-- The queue operations: the length; a push at the tail; a pop of the head (42_queue_arbiter.md section 2). A push takes place in
`RUN`, with room, of a unit that a pushing event can create, and otherwise nothing happens, as with a pop from an empty queue (log
entry 16; the results are log entry 13). The rows presented on their own ask for no open burst and no tick, and a unit popped so is
not emitted: the model's choice (log entries 27 and 28). -/
def Obligations.QueueOperations : Prop :=
  ∀ (u : TxUnit) (rest : List TxUnit) (s : State),
    exec (.qops .qlen) s = .next { s with result := .num s.q.length } ∧
    (s.encMode = .run → s.q.length < s.cfg.qdepth → u.framed = true ∨ u.payload = 0xFF →
      exec (.qops (.qpush u)) s = .next { s with q := s.q ++ [u] }) ∧
    (s.encMode ≠ .run ∨ s.cfg.qdepth ≤ s.q.length ∨ (u.framed = false ∧ u.payload ≠ 0xFF) →
      exec (.qops (.qpush u)) s = .next s) ∧
    (s.q = u :: rest → exec (.qops .qpop) s = .next { s with q := rest, result := .unit u }) ∧
    (s.q = [] → exec (.qops .qpop) s = .next s)

/-- The codings of the enumerated values; the mode code 3 stands for no mode (10_state.md sections 5 and 6, 30_encoding.md
sections 1, 4 and 8; log entries 13 and 25). -/
def Obligations.CodingsStandForValues : Prop :=
  ∀ s : State,
    exec .levelLow s = .next { s with result := .level .low } ∧
    exec .levelHigh s = .next { s with result := .level .high } ∧
    exec .dirFalling s = .next { s with result := .dir .falling } ∧
    exec .dirRising s = .next { s with result := .dir .rising } ∧
    exec .modeRun s = .next { s with result := .mode (some .run) } ∧
    exec .modeClosing s = .next { s with result := .mode (some .closing) } ∧
    exec .modeStopped s = .next { s with result := .mode (some .stopped) } ∧
    exec .modeReserved s = .next { s with result := .mode none } ∧
    exec .syncSearching s = .next { s with result := .sync .searching } ∧
    exec .syncSynced s = .next { s with result := .sync .synced } ∧
    exec .phaseMid s = .next { s with result := .phase .mid } ∧
    exec .phaseBoundary s = .next { s with result := .phase .boundary }

/-! ### Causes -/

/-- Raising a decoder cause: while synced it resynchronises and reports; while searching BIT_SLIP and TS_ORDER clear the run and
report, and the others, which cannot occur there, change nothing (60_exceptions.md section 1; log entry 15). RESYNC of a decoder
cause discards the partial byte, searches and reports; `last_ts`, `have_last`, `run` and the bytes emitted stay (44_decoder.md
section 4; log entry 14). -/
def Obligations.DecoderCausesTaken : Prop :=
  ∀ s : State,
    (∀ c : Cause, c.isDecoder = true → exec (.resync c) s = .next
      { s with sync := .searching, phase := .mid, slot := 0, shreg := 0x00, rxErrs := s.rxErrs ++ [c],
               rxErr := some c }) ∧
    ∀ ic ∈ [(Instr.causeBitSlip, Cause.bitSlip), (.causeTsOrder, .tsOrder), (.causeFramingStart, .framingStart),
            (.causeFramingStop, .framingStop), (.causePhaseViolation, .phaseViolation)],
      (s.sync = .synced → exec ic.1 s = .next
        { s with sync := .searching, phase := .mid, slot := 0, shreg := 0x00, rxErrs := s.rxErrs ++ [ic.2],
                 rxErr := some ic.2 }) ∧
      (s.sync = .searching → ic.2 = .bitSlip ∨ ic.2 = .tsOrder → exec ic.1 s = .next
        { s with run := 0, rxErrs := s.rxErrs ++ [ic.2], rxErr := some ic.2 }) ∧
      (s.sync = .searching → ic.2 ≠ .bitSlip → ic.2 ≠ .tsOrder → exec ic.1 s = .next s)

/-- WRITE_AFTER_CLOSE for a call that is not the owner's: the refusal's effect; in `RUN` it is not raised
(60_exceptions.md section 1; log entry 15). -/
def Obligations.WriteAfterCloseTaken : Prop :=
  ∀ (p : Nat) (s : State), p < s.cfg.nprod →
    (s.encMode ≠ .run → s.owner ≠ some p → exec (.causeWriteAfterClose p) s = .next
      { s with wrCount := s.wrCount.set p 0, wrErr := s.wrErr.set p true, wrDone := s.wrDone.set p true }) ∧
    (s.encMode = .run → exec (.causeWriteAfterClose p) s = .next s)

/-- CLOSE_RELEASE_FAILURE is never raised: its row changes nothing and `close_err` is the constant 0 (60_exceptions.md
section 1; log entry 15). -/
def Obligations.CloseReleaseNeverFails : Prop :=
  ∀ s t : State, exec .causeCloseReleaseFailure s = .next s ∧ (outputs s t).closeErr = false

/-! ### Output ports -/

/-- The output ports of the cycle or operation that a step from `s` to `t` runs. The levels are the functions of the state `s` at
its start that the port table gives; the strobes are the pulses of the step itself, which the state `t` keeps (10_state.md section
2; that a state keeps the pulses of the step before it is log entry 22). In a cycle without `rst`, `tx_set`, `rx_valid` and
`rx_err_valid` are 1 exactly when that cycle extends the sequence they strobe. The five codes are those of 60_exceptions.md
section 1. -/
def Obligations.OutputPorts : Prop :=
  ∀ (p : Nat) (s t : State), step s = .next t → p < s.cfg.nprod → ∃ o, stepOutputs s = some o ∧
    (o.tx = true ↔ s.tx = .high) ∧ o.wrGnt[p]? = some (decide (s.owner = some p)) ∧
    o.wrReady[p]? = some (decide (s.owner = some p ∧ s.preLeft = 0 ∧ s.q.length < s.cfg.qdepth ∧ s.encMode = .run)) ∧
    o.wrCount = s.wrCount ∧ o.wrErr = s.wrErr ∧ o.closeDone = s.closeDone ∧ o.closeErr = false ∧
    (o.encMode = match s.encMode with | .run => 0 | .closing => 1 | .stopped => 2) ∧
    o.encBusy = s.busy ∧ o.drvErrSticky = s.drvErrSticky ∧ (o.rxSynced = true ↔ s.sync = .synced) ∧
    o.txSet = t.txSet ∧ o.wrDone = t.wrDone ∧
    (o.rxValid = true ↔ t.rxEmit ≠ none) ∧ (∀ v, t.rxEmit = some v → o.rxData = v) ∧
    (o.rxErrValid = true ↔ t.rxErr ≠ none) ∧
    (t.rxErr = some .bitSlip → o.rxErrCode = 2) ∧ (t.rxErr = some .framingStart → o.rxErrCode = 3) ∧
    (t.rxErr = some .framingStop → o.rxErrCode = 4) ∧ (t.rxErr = some .phaseViolation → o.rxErrCode = 5) ∧
    (t.rxErr = some .tsOrder → o.rxErrCode = 6) ∧
    (∀ (inp : PortIn) (rest : List Stimulus), s.stim = .ports inp :: rest → inp.rst = false →
      (o.txSet = true ↔ t.txLog ≠ s.txLog) ∧ (o.rxValid = true ↔ t.rxBytes ≠ s.rxBytes) ∧
      (o.rxErrValid = true ↔ t.rxErrs ≠ s.rxErrs))
end

