-- ==== Sys2Proof/Laws/State.lean ====
section
/-! SUPPORT. The fields of the state after each primitive update, one lemma for each field (00_scope.md R12: every element a
primitive does not name keeps its value). -/

namespace Sys2Proof.Machine

/-! ### beginStep -/

@[simp] theorem beginStep_cfg (rest : List Stimulus) (s : State) : (beginStep rest s).cfg = s.cfg := rfl
@[simp] theorem beginStep_stim (rest : List Stimulus) (s : State) : (beginStep rest s).stim = rest := rfl
@[simp] theorem beginStep_clkRun (rest : List Stimulus) (s : State) : (beginStep rest s).clkRun = s.clkRun := rfl
@[simp] theorem beginStep_div (rest : List Stimulus) (s : State) : (beginStep rest s).div = s.div := rfl
@[simp] theorem beginStep_q (rest : List Stimulus) (s : State) : (beginStep rest s).q = s.q := rfl
@[simp] theorem beginStep_owner (rest : List Stimulus) (s : State) : (beginStep rest s).owner = s.owner := rfl
@[simp] theorem beginStep_preLeft (rest : List Stimulus) (s : State) : (beginStep rest s).preLeft = s.preLeft := rfl
@[simp] theorem beginStep_wrCount (rest : List Stimulus) (s : State) : (beginStep rest s).wrCount = s.wrCount := rfl
@[simp] theorem beginStep_wrErr (rest : List Stimulus) (s : State) : (beginStep rest s).wrErr = s.wrErr := rfl
@[simp] theorem beginStep_encMode (rest : List Stimulus) (s : State) : (beginStep rest s).encMode = s.encMode := rfl
@[simp] theorem beginStep_busy (rest : List Stimulus) (s : State) : (beginStep rest s).busy = s.busy := rfl
@[simp] theorem beginStep_cur (rest : List Stimulus) (s : State) : (beginStep rest s).cur = s.cur := rfl
@[simp] theorem beginStep_pos (rest : List Stimulus) (s : State) : (beginStep rest s).pos = s.pos := rfl
@[simp] theorem beginStep_tx (rest : List Stimulus) (s : State) : (beginStep rest s).tx = s.tx := rfl
@[simp] theorem beginStep_closeDone (rest : List Stimulus) (s : State) : (beginStep rest s).closeDone = s.closeDone := rfl
@[simp] theorem beginStep_drvErrSticky (rest : List Stimulus) (s : State) : (beginStep rest s).drvErrSticky = s.drvErrSticky := rfl
@[simp] theorem beginStep_sync (rest : List Stimulus) (s : State) : (beginStep rest s).sync = s.sync := rfl
@[simp] theorem beginStep_haveLast (rest : List Stimulus) (s : State) : (beginStep rest s).haveLast = s.haveLast := rfl
@[simp] theorem beginStep_lastTs (rest : List Stimulus) (s : State) : (beginStep rest s).lastTs = s.lastTs := rfl
@[simp] theorem beginStep_phase (rest : List Stimulus) (s : State) : (beginStep rest s).phase = s.phase := rfl
@[simp] theorem beginStep_run (rest : List Stimulus) (s : State) : (beginStep rest s).run = s.run := rfl
@[simp] theorem beginStep_slot (rest : List Stimulus) (s : State) : (beginStep rest s).slot = s.slot := rfl
@[simp] theorem beginStep_shreg (rest : List Stimulus) (s : State) : (beginStep rest s).shreg = s.shreg := rfl
@[simp] theorem beginStep_txLog (rest : List Stimulus) (s : State) : (beginStep rest s).txLog = s.txLog := rfl
@[simp] theorem beginStep_rxBytes (rest : List Stimulus) (s : State) : (beginStep rest s).rxBytes = s.rxBytes := rfl
@[simp] theorem beginStep_rxErrs (rest : List Stimulus) (s : State) : (beginStep rest s).rxErrs = s.rxErrs := rfl
@[simp] theorem beginStep_txSet (rest : List Stimulus) (s : State) : (beginStep rest s).txSet = false := rfl
@[simp] theorem beginStep_wrDone (rest : List Stimulus) (s : State) : (beginStep rest s).wrDone = List.replicate s.cfg.nprod false := rfl
@[simp] theorem beginStep_rxEmit (rest : List Stimulus) (s : State) : (beginStep rest s).rxEmit = none := rfl
@[simp] theorem beginStep_rxErr (rest : List Stimulus) (s : State) : (beginStep rest s).rxErr = none := rfl
@[simp] theorem beginStep_result (rest : List Stimulus) (s : State) : (beginStep rest s).result = s.result := rfl
@[simp] theorem beginStep_freeCount (rest : List Stimulus) (s : State) : (beginStep rest s).freeCount = s.freeCount + 1 := rfl
@[simp] theorem beginStep_cycle (rest : List Stimulus) (s : State) : (beginStep rest s).cycle = s.cycle := rfl
@[simp] theorem beginStep_ticks (rest : List Stimulus) (s : State) : (beginStep rest s).ticks = s.ticks := rfl

/-! ### setResult -/

@[simp] theorem setResult_cfg (r : FnResult) (s : State) : (setResult r s).cfg = s.cfg := rfl
@[simp] theorem setResult_stim (r : FnResult) (s : State) : (setResult r s).stim = s.stim := rfl
@[simp] theorem setResult_clkRun (r : FnResult) (s : State) : (setResult r s).clkRun = s.clkRun := rfl
@[simp] theorem setResult_div (r : FnResult) (s : State) : (setResult r s).div = s.div := rfl
@[simp] theorem setResult_q (r : FnResult) (s : State) : (setResult r s).q = s.q := rfl
@[simp] theorem setResult_owner (r : FnResult) (s : State) : (setResult r s).owner = s.owner := rfl
@[simp] theorem setResult_preLeft (r : FnResult) (s : State) : (setResult r s).preLeft = s.preLeft := rfl
@[simp] theorem setResult_wrCount (r : FnResult) (s : State) : (setResult r s).wrCount = s.wrCount := rfl
@[simp] theorem setResult_wrErr (r : FnResult) (s : State) : (setResult r s).wrErr = s.wrErr := rfl
@[simp] theorem setResult_encMode (r : FnResult) (s : State) : (setResult r s).encMode = s.encMode := rfl
@[simp] theorem setResult_busy (r : FnResult) (s : State) : (setResult r s).busy = s.busy := rfl
@[simp] theorem setResult_cur (r : FnResult) (s : State) : (setResult r s).cur = s.cur := rfl
@[simp] theorem setResult_pos (r : FnResult) (s : State) : (setResult r s).pos = s.pos := rfl
@[simp] theorem setResult_tx (r : FnResult) (s : State) : (setResult r s).tx = s.tx := rfl
@[simp] theorem setResult_closeDone (r : FnResult) (s : State) : (setResult r s).closeDone = s.closeDone := rfl
@[simp] theorem setResult_drvErrSticky (r : FnResult) (s : State) : (setResult r s).drvErrSticky = s.drvErrSticky := rfl
@[simp] theorem setResult_sync (r : FnResult) (s : State) : (setResult r s).sync = s.sync := rfl
@[simp] theorem setResult_haveLast (r : FnResult) (s : State) : (setResult r s).haveLast = s.haveLast := rfl
@[simp] theorem setResult_lastTs (r : FnResult) (s : State) : (setResult r s).lastTs = s.lastTs := rfl
@[simp] theorem setResult_phase (r : FnResult) (s : State) : (setResult r s).phase = s.phase := rfl
@[simp] theorem setResult_run (r : FnResult) (s : State) : (setResult r s).run = s.run := rfl
@[simp] theorem setResult_slot (r : FnResult) (s : State) : (setResult r s).slot = s.slot := rfl
@[simp] theorem setResult_shreg (r : FnResult) (s : State) : (setResult r s).shreg = s.shreg := rfl
@[simp] theorem setResult_txLog (r : FnResult) (s : State) : (setResult r s).txLog = s.txLog := rfl
@[simp] theorem setResult_rxBytes (r : FnResult) (s : State) : (setResult r s).rxBytes = s.rxBytes := rfl
@[simp] theorem setResult_rxErrs (r : FnResult) (s : State) : (setResult r s).rxErrs = s.rxErrs := rfl
@[simp] theorem setResult_txSet (r : FnResult) (s : State) : (setResult r s).txSet = s.txSet := rfl
@[simp] theorem setResult_wrDone (r : FnResult) (s : State) : (setResult r s).wrDone = s.wrDone := rfl
@[simp] theorem setResult_rxEmit (r : FnResult) (s : State) : (setResult r s).rxEmit = s.rxEmit := rfl
@[simp] theorem setResult_rxErr (r : FnResult) (s : State) : (setResult r s).rxErr = s.rxErr := rfl
@[simp] theorem setResult_result (r : FnResult) (s : State) : (setResult r s).result = r := rfl
@[simp] theorem setResult_freeCount (r : FnResult) (s : State) : (setResult r s).freeCount = s.freeCount := rfl
@[simp] theorem setResult_cycle (r : FnResult) (s : State) : (setResult r s).cycle = s.cycle := rfl
@[simp] theorem setResult_ticks (r : FnResult) (s : State) : (setResult r s).ticks = s.ticks := rfl

/-! ### setLevel -/

@[simp] theorem setLevel_cfg (l : Level) (s : State) : (setLevel l s).cfg = s.cfg := rfl
@[simp] theorem setLevel_stim (l : Level) (s : State) : (setLevel l s).stim = s.stim := rfl
@[simp] theorem setLevel_clkRun (l : Level) (s : State) : (setLevel l s).clkRun = s.clkRun := rfl
@[simp] theorem setLevel_div (l : Level) (s : State) : (setLevel l s).div = s.div := rfl
@[simp] theorem setLevel_q (l : Level) (s : State) : (setLevel l s).q = s.q := rfl
@[simp] theorem setLevel_owner (l : Level) (s : State) : (setLevel l s).owner = s.owner := rfl
@[simp] theorem setLevel_preLeft (l : Level) (s : State) : (setLevel l s).preLeft = s.preLeft := rfl
@[simp] theorem setLevel_wrCount (l : Level) (s : State) : (setLevel l s).wrCount = s.wrCount := rfl
@[simp] theorem setLevel_wrErr (l : Level) (s : State) : (setLevel l s).wrErr = s.wrErr := rfl
@[simp] theorem setLevel_encMode (l : Level) (s : State) : (setLevel l s).encMode = s.encMode := rfl
@[simp] theorem setLevel_busy (l : Level) (s : State) : (setLevel l s).busy = s.busy := rfl
@[simp] theorem setLevel_cur (l : Level) (s : State) : (setLevel l s).cur = s.cur := rfl
@[simp] theorem setLevel_pos (l : Level) (s : State) : (setLevel l s).pos = s.pos := rfl
@[simp] theorem setLevel_tx (l : Level) (s : State) : (setLevel l s).tx = l := rfl
@[simp] theorem setLevel_closeDone (l : Level) (s : State) : (setLevel l s).closeDone = s.closeDone := rfl
@[simp] theorem setLevel_drvErrSticky (l : Level) (s : State) : (setLevel l s).drvErrSticky = s.drvErrSticky := rfl
@[simp] theorem setLevel_sync (l : Level) (s : State) : (setLevel l s).sync = s.sync := rfl
@[simp] theorem setLevel_haveLast (l : Level) (s : State) : (setLevel l s).haveLast = s.haveLast := rfl
@[simp] theorem setLevel_lastTs (l : Level) (s : State) : (setLevel l s).lastTs = s.lastTs := rfl
@[simp] theorem setLevel_phase (l : Level) (s : State) : (setLevel l s).phase = s.phase := rfl
@[simp] theorem setLevel_run (l : Level) (s : State) : (setLevel l s).run = s.run := rfl
@[simp] theorem setLevel_slot (l : Level) (s : State) : (setLevel l s).slot = s.slot := rfl
@[simp] theorem setLevel_shreg (l : Level) (s : State) : (setLevel l s).shreg = s.shreg := rfl
@[simp] theorem setLevel_txLog (l : Level) (s : State) : (setLevel l s).txLog = s.txLog ++ [l] := rfl
@[simp] theorem setLevel_rxBytes (l : Level) (s : State) : (setLevel l s).rxBytes = s.rxBytes := rfl
@[simp] theorem setLevel_rxErrs (l : Level) (s : State) : (setLevel l s).rxErrs = s.rxErrs := rfl
@[simp] theorem setLevel_txSet (l : Level) (s : State) : (setLevel l s).txSet = true := rfl
@[simp] theorem setLevel_wrDone (l : Level) (s : State) : (setLevel l s).wrDone = s.wrDone := rfl
@[simp] theorem setLevel_rxEmit (l : Level) (s : State) : (setLevel l s).rxEmit = s.rxEmit := rfl
@[simp] theorem setLevel_rxErr (l : Level) (s : State) : (setLevel l s).rxErr = s.rxErr := rfl
@[simp] theorem setLevel_result (l : Level) (s : State) : (setLevel l s).result = s.result := rfl
@[simp] theorem setLevel_freeCount (l : Level) (s : State) : (setLevel l s).freeCount = s.freeCount := rfl
@[simp] theorem setLevel_cycle (l : Level) (s : State) : (setLevel l s).cycle = s.cycle := rfl
@[simp] theorem setLevel_ticks (l : Level) (s : State) : (setLevel l s).ticks = s.ticks := rfl

/-! ### emitByte -/

@[simp] theorem emitByte_cfg (v : Byte) (s : State) : (emitByte v s).cfg = s.cfg := rfl
@[simp] theorem emitByte_stim (v : Byte) (s : State) : (emitByte v s).stim = s.stim := rfl
@[simp] theorem emitByte_clkRun (v : Byte) (s : State) : (emitByte v s).clkRun = s.clkRun := rfl
@[simp] theorem emitByte_div (v : Byte) (s : State) : (emitByte v s).div = s.div := rfl
@[simp] theorem emitByte_q (v : Byte) (s : State) : (emitByte v s).q = s.q := rfl
@[simp] theorem emitByte_owner (v : Byte) (s : State) : (emitByte v s).owner = s.owner := rfl
@[simp] theorem emitByte_preLeft (v : Byte) (s : State) : (emitByte v s).preLeft = s.preLeft := rfl
@[simp] theorem emitByte_wrCount (v : Byte) (s : State) : (emitByte v s).wrCount = s.wrCount := rfl
@[simp] theorem emitByte_wrErr (v : Byte) (s : State) : (emitByte v s).wrErr = s.wrErr := rfl
@[simp] theorem emitByte_encMode (v : Byte) (s : State) : (emitByte v s).encMode = s.encMode := rfl
@[simp] theorem emitByte_busy (v : Byte) (s : State) : (emitByte v s).busy = s.busy := rfl
@[simp] theorem emitByte_cur (v : Byte) (s : State) : (emitByte v s).cur = s.cur := rfl
@[simp] theorem emitByte_pos (v : Byte) (s : State) : (emitByte v s).pos = s.pos := rfl
@[simp] theorem emitByte_tx (v : Byte) (s : State) : (emitByte v s).tx = s.tx := rfl
@[simp] theorem emitByte_closeDone (v : Byte) (s : State) : (emitByte v s).closeDone = s.closeDone := rfl
@[simp] theorem emitByte_drvErrSticky (v : Byte) (s : State) : (emitByte v s).drvErrSticky = s.drvErrSticky := rfl
@[simp] theorem emitByte_sync (v : Byte) (s : State) : (emitByte v s).sync = s.sync := rfl
@[simp] theorem emitByte_haveLast (v : Byte) (s : State) : (emitByte v s).haveLast = s.haveLast := rfl
@[simp] theorem emitByte_lastTs (v : Byte) (s : State) : (emitByte v s).lastTs = s.lastTs := rfl
@[simp] theorem emitByte_phase (v : Byte) (s : State) : (emitByte v s).phase = s.phase := rfl
@[simp] theorem emitByte_run (v : Byte) (s : State) : (emitByte v s).run = s.run := rfl
@[simp] theorem emitByte_slot (v : Byte) (s : State) : (emitByte v s).slot = s.slot := rfl
@[simp] theorem emitByte_shreg (v : Byte) (s : State) : (emitByte v s).shreg = s.shreg := rfl
@[simp] theorem emitByte_txLog (v : Byte) (s : State) : (emitByte v s).txLog = s.txLog := rfl
@[simp] theorem emitByte_rxBytes (v : Byte) (s : State) : (emitByte v s).rxBytes = s.rxBytes ++ [v] := rfl
@[simp] theorem emitByte_rxErrs (v : Byte) (s : State) : (emitByte v s).rxErrs = s.rxErrs := rfl
@[simp] theorem emitByte_txSet (v : Byte) (s : State) : (emitByte v s).txSet = s.txSet := rfl
@[simp] theorem emitByte_wrDone (v : Byte) (s : State) : (emitByte v s).wrDone = s.wrDone := rfl
@[simp] theorem emitByte_rxEmit (v : Byte) (s : State) : (emitByte v s).rxEmit = some v := rfl
@[simp] theorem emitByte_rxErr (v : Byte) (s : State) : (emitByte v s).rxErr = s.rxErr := rfl
@[simp] theorem emitByte_result (v : Byte) (s : State) : (emitByte v s).result = s.result := rfl
@[simp] theorem emitByte_freeCount (v : Byte) (s : State) : (emitByte v s).freeCount = s.freeCount := rfl
@[simp] theorem emitByte_cycle (v : Byte) (s : State) : (emitByte v s).cycle = s.cycle := rfl
@[simp] theorem emitByte_ticks (v : Byte) (s : State) : (emitByte v s).ticks = s.ticks := rfl

/-! ### reportErr -/

@[simp] theorem reportErr_cfg (c : Cause) (s : State) : (reportErr c s).cfg = s.cfg := rfl
@[simp] theorem reportErr_stim (c : Cause) (s : State) : (reportErr c s).stim = s.stim := rfl
@[simp] theorem reportErr_clkRun (c : Cause) (s : State) : (reportErr c s).clkRun = s.clkRun := rfl
@[simp] theorem reportErr_div (c : Cause) (s : State) : (reportErr c s).div = s.div := rfl
@[simp] theorem reportErr_q (c : Cause) (s : State) : (reportErr c s).q = s.q := rfl
@[simp] theorem reportErr_owner (c : Cause) (s : State) : (reportErr c s).owner = s.owner := rfl
@[simp] theorem reportErr_preLeft (c : Cause) (s : State) : (reportErr c s).preLeft = s.preLeft := rfl
@[simp] theorem reportErr_wrCount (c : Cause) (s : State) : (reportErr c s).wrCount = s.wrCount := rfl
@[simp] theorem reportErr_wrErr (c : Cause) (s : State) : (reportErr c s).wrErr = s.wrErr := rfl
@[simp] theorem reportErr_encMode (c : Cause) (s : State) : (reportErr c s).encMode = s.encMode := rfl
@[simp] theorem reportErr_busy (c : Cause) (s : State) : (reportErr c s).busy = s.busy := rfl
@[simp] theorem reportErr_cur (c : Cause) (s : State) : (reportErr c s).cur = s.cur := rfl
@[simp] theorem reportErr_pos (c : Cause) (s : State) : (reportErr c s).pos = s.pos := rfl
@[simp] theorem reportErr_tx (c : Cause) (s : State) : (reportErr c s).tx = s.tx := rfl
@[simp] theorem reportErr_closeDone (c : Cause) (s : State) : (reportErr c s).closeDone = s.closeDone := rfl
@[simp] theorem reportErr_drvErrSticky (c : Cause) (s : State) : (reportErr c s).drvErrSticky = s.drvErrSticky := rfl
@[simp] theorem reportErr_sync (c : Cause) (s : State) : (reportErr c s).sync = s.sync := rfl
@[simp] theorem reportErr_haveLast (c : Cause) (s : State) : (reportErr c s).haveLast = s.haveLast := rfl
@[simp] theorem reportErr_lastTs (c : Cause) (s : State) : (reportErr c s).lastTs = s.lastTs := rfl
@[simp] theorem reportErr_phase (c : Cause) (s : State) : (reportErr c s).phase = s.phase := rfl
@[simp] theorem reportErr_run (c : Cause) (s : State) : (reportErr c s).run = s.run := rfl
@[simp] theorem reportErr_slot (c : Cause) (s : State) : (reportErr c s).slot = s.slot := rfl
@[simp] theorem reportErr_shreg (c : Cause) (s : State) : (reportErr c s).shreg = s.shreg := rfl
@[simp] theorem reportErr_txLog (c : Cause) (s : State) : (reportErr c s).txLog = s.txLog := rfl
@[simp] theorem reportErr_rxBytes (c : Cause) (s : State) : (reportErr c s).rxBytes = s.rxBytes := rfl
@[simp] theorem reportErr_rxErrs (c : Cause) (s : State) : (reportErr c s).rxErrs = s.rxErrs ++ [c] := rfl
@[simp] theorem reportErr_txSet (c : Cause) (s : State) : (reportErr c s).txSet = s.txSet := rfl
@[simp] theorem reportErr_wrDone (c : Cause) (s : State) : (reportErr c s).wrDone = s.wrDone := rfl
@[simp] theorem reportErr_rxEmit (c : Cause) (s : State) : (reportErr c s).rxEmit = s.rxEmit := rfl
@[simp] theorem reportErr_rxErr (c : Cause) (s : State) : (reportErr c s).rxErr = some c := rfl
@[simp] theorem reportErr_result (c : Cause) (s : State) : (reportErr c s).result = s.result := rfl
@[simp] theorem reportErr_freeCount (c : Cause) (s : State) : (reportErr c s).freeCount = s.freeCount := rfl
@[simp] theorem reportErr_cycle (c : Cause) (s : State) : (reportErr c s).cycle = s.cycle := rfl
@[simp] theorem reportErr_ticks (c : Cause) (s : State) : (reportErr c s).ticks = s.ticks := rfl

/-! ### pulseDone -/

@[simp] theorem pulseDone_cfg (p : Nat) (s : State) : (pulseDone p s).cfg = s.cfg := rfl
@[simp] theorem pulseDone_stim (p : Nat) (s : State) : (pulseDone p s).stim = s.stim := rfl
@[simp] theorem pulseDone_clkRun (p : Nat) (s : State) : (pulseDone p s).clkRun = s.clkRun := rfl
@[simp] theorem pulseDone_div (p : Nat) (s : State) : (pulseDone p s).div = s.div := rfl
@[simp] theorem pulseDone_q (p : Nat) (s : State) : (pulseDone p s).q = s.q := rfl
@[simp] theorem pulseDone_owner (p : Nat) (s : State) : (pulseDone p s).owner = s.owner := rfl
@[simp] theorem pulseDone_preLeft (p : Nat) (s : State) : (pulseDone p s).preLeft = s.preLeft := rfl
@[simp] theorem pulseDone_wrCount (p : Nat) (s : State) : (pulseDone p s).wrCount = s.wrCount := rfl
@[simp] theorem pulseDone_wrErr (p : Nat) (s : State) : (pulseDone p s).wrErr = s.wrErr := rfl
@[simp] theorem pulseDone_encMode (p : Nat) (s : State) : (pulseDone p s).encMode = s.encMode := rfl
@[simp] theorem pulseDone_busy (p : Nat) (s : State) : (pulseDone p s).busy = s.busy := rfl
@[simp] theorem pulseDone_cur (p : Nat) (s : State) : (pulseDone p s).cur = s.cur := rfl
@[simp] theorem pulseDone_pos (p : Nat) (s : State) : (pulseDone p s).pos = s.pos := rfl
@[simp] theorem pulseDone_tx (p : Nat) (s : State) : (pulseDone p s).tx = s.tx := rfl
@[simp] theorem pulseDone_closeDone (p : Nat) (s : State) : (pulseDone p s).closeDone = s.closeDone := rfl
@[simp] theorem pulseDone_drvErrSticky (p : Nat) (s : State) : (pulseDone p s).drvErrSticky = s.drvErrSticky := rfl
@[simp] theorem pulseDone_sync (p : Nat) (s : State) : (pulseDone p s).sync = s.sync := rfl
@[simp] theorem pulseDone_haveLast (p : Nat) (s : State) : (pulseDone p s).haveLast = s.haveLast := rfl
@[simp] theorem pulseDone_lastTs (p : Nat) (s : State) : (pulseDone p s).lastTs = s.lastTs := rfl
@[simp] theorem pulseDone_phase (p : Nat) (s : State) : (pulseDone p s).phase = s.phase := rfl
@[simp] theorem pulseDone_run (p : Nat) (s : State) : (pulseDone p s).run = s.run := rfl
@[simp] theorem pulseDone_slot (p : Nat) (s : State) : (pulseDone p s).slot = s.slot := rfl
@[simp] theorem pulseDone_shreg (p : Nat) (s : State) : (pulseDone p s).shreg = s.shreg := rfl
@[simp] theorem pulseDone_txLog (p : Nat) (s : State) : (pulseDone p s).txLog = s.txLog := rfl
@[simp] theorem pulseDone_rxBytes (p : Nat) (s : State) : (pulseDone p s).rxBytes = s.rxBytes := rfl
@[simp] theorem pulseDone_rxErrs (p : Nat) (s : State) : (pulseDone p s).rxErrs = s.rxErrs := rfl
@[simp] theorem pulseDone_txSet (p : Nat) (s : State) : (pulseDone p s).txSet = s.txSet := rfl
@[simp] theorem pulseDone_wrDone (p : Nat) (s : State) : (pulseDone p s).wrDone = s.wrDone.set p true := rfl
@[simp] theorem pulseDone_rxEmit (p : Nat) (s : State) : (pulseDone p s).rxEmit = s.rxEmit := rfl
@[simp] theorem pulseDone_rxErr (p : Nat) (s : State) : (pulseDone p s).rxErr = s.rxErr := rfl
@[simp] theorem pulseDone_result (p : Nat) (s : State) : (pulseDone p s).result = s.result := rfl
@[simp] theorem pulseDone_freeCount (p : Nat) (s : State) : (pulseDone p s).freeCount = s.freeCount := rfl
@[simp] theorem pulseDone_cycle (p : Nat) (s : State) : (pulseDone p s).cycle = s.cycle := rfl
@[simp] theorem pulseDone_ticks (p : Nat) (s : State) : (pulseDone p s).ticks = s.ticks := rfl

/-! ### pushUnit -/

@[simp] theorem pushUnit_cfg (u : TxUnit) (s : State) : (pushUnit u s).cfg = s.cfg := rfl
@[simp] theorem pushUnit_stim (u : TxUnit) (s : State) : (pushUnit u s).stim = s.stim := rfl
@[simp] theorem pushUnit_clkRun (u : TxUnit) (s : State) : (pushUnit u s).clkRun = s.clkRun := rfl
@[simp] theorem pushUnit_div (u : TxUnit) (s : State) : (pushUnit u s).div = s.div := rfl
@[simp] theorem pushUnit_q (u : TxUnit) (s : State) : (pushUnit u s).q = s.q ++ [u] := rfl
@[simp] theorem pushUnit_owner (u : TxUnit) (s : State) : (pushUnit u s).owner = s.owner := rfl
@[simp] theorem pushUnit_preLeft (u : TxUnit) (s : State) : (pushUnit u s).preLeft = s.preLeft := rfl
@[simp] theorem pushUnit_wrCount (u : TxUnit) (s : State) : (pushUnit u s).wrCount = s.wrCount := rfl
@[simp] theorem pushUnit_wrErr (u : TxUnit) (s : State) : (pushUnit u s).wrErr = s.wrErr := rfl
@[simp] theorem pushUnit_encMode (u : TxUnit) (s : State) : (pushUnit u s).encMode = s.encMode := rfl
@[simp] theorem pushUnit_busy (u : TxUnit) (s : State) : (pushUnit u s).busy = s.busy := rfl
@[simp] theorem pushUnit_cur (u : TxUnit) (s : State) : (pushUnit u s).cur = s.cur := rfl
@[simp] theorem pushUnit_pos (u : TxUnit) (s : State) : (pushUnit u s).pos = s.pos := rfl
@[simp] theorem pushUnit_tx (u : TxUnit) (s : State) : (pushUnit u s).tx = s.tx := rfl
@[simp] theorem pushUnit_closeDone (u : TxUnit) (s : State) : (pushUnit u s).closeDone = s.closeDone := rfl
@[simp] theorem pushUnit_drvErrSticky (u : TxUnit) (s : State) : (pushUnit u s).drvErrSticky = s.drvErrSticky := rfl
@[simp] theorem pushUnit_sync (u : TxUnit) (s : State) : (pushUnit u s).sync = s.sync := rfl
@[simp] theorem pushUnit_haveLast (u : TxUnit) (s : State) : (pushUnit u s).haveLast = s.haveLast := rfl
@[simp] theorem pushUnit_lastTs (u : TxUnit) (s : State) : (pushUnit u s).lastTs = s.lastTs := rfl
@[simp] theorem pushUnit_phase (u : TxUnit) (s : State) : (pushUnit u s).phase = s.phase := rfl
@[simp] theorem pushUnit_run (u : TxUnit) (s : State) : (pushUnit u s).run = s.run := rfl
@[simp] theorem pushUnit_slot (u : TxUnit) (s : State) : (pushUnit u s).slot = s.slot := rfl
@[simp] theorem pushUnit_shreg (u : TxUnit) (s : State) : (pushUnit u s).shreg = s.shreg := rfl
@[simp] theorem pushUnit_txLog (u : TxUnit) (s : State) : (pushUnit u s).txLog = s.txLog := rfl
@[simp] theorem pushUnit_rxBytes (u : TxUnit) (s : State) : (pushUnit u s).rxBytes = s.rxBytes := rfl
@[simp] theorem pushUnit_rxErrs (u : TxUnit) (s : State) : (pushUnit u s).rxErrs = s.rxErrs := rfl
@[simp] theorem pushUnit_txSet (u : TxUnit) (s : State) : (pushUnit u s).txSet = s.txSet := rfl
@[simp] theorem pushUnit_wrDone (u : TxUnit) (s : State) : (pushUnit u s).wrDone = s.wrDone := rfl
@[simp] theorem pushUnit_rxEmit (u : TxUnit) (s : State) : (pushUnit u s).rxEmit = s.rxEmit := rfl
@[simp] theorem pushUnit_rxErr (u : TxUnit) (s : State) : (pushUnit u s).rxErr = s.rxErr := rfl
@[simp] theorem pushUnit_result (u : TxUnit) (s : State) : (pushUnit u s).result = s.result := rfl
@[simp] theorem pushUnit_freeCount (u : TxUnit) (s : State) : (pushUnit u s).freeCount = s.freeCount := rfl
@[simp] theorem pushUnit_cycle (u : TxUnit) (s : State) : (pushUnit u s).cycle = s.cycle := rfl
@[simp] theorem pushUnit_ticks (u : TxUnit) (s : State) : (pushUnit u s).ticks = s.ticks := rfl

/-! ### popUnit -/

@[simp] theorem popUnit_cfg (u : TxUnit) (rest : List TxUnit) (s : State) : (popUnit u rest s).cfg = s.cfg := rfl
@[simp] theorem popUnit_stim (u : TxUnit) (rest : List TxUnit) (s : State) : (popUnit u rest s).stim = s.stim := rfl
@[simp] theorem popUnit_clkRun (u : TxUnit) (rest : List TxUnit) (s : State) : (popUnit u rest s).clkRun = s.clkRun := rfl
@[simp] theorem popUnit_div (u : TxUnit) (rest : List TxUnit) (s : State) : (popUnit u rest s).div = s.div := rfl
@[simp] theorem popUnit_q (u : TxUnit) (rest : List TxUnit) (s : State) : (popUnit u rest s).q = rest := rfl
@[simp] theorem popUnit_owner (u : TxUnit) (rest : List TxUnit) (s : State) : (popUnit u rest s).owner = s.owner := rfl
@[simp] theorem popUnit_preLeft (u : TxUnit) (rest : List TxUnit) (s : State) : (popUnit u rest s).preLeft = s.preLeft := rfl
@[simp] theorem popUnit_wrCount (u : TxUnit) (rest : List TxUnit) (s : State) : (popUnit u rest s).wrCount = s.wrCount := rfl
@[simp] theorem popUnit_wrErr (u : TxUnit) (rest : List TxUnit) (s : State) : (popUnit u rest s).wrErr = s.wrErr := rfl
@[simp] theorem popUnit_encMode (u : TxUnit) (rest : List TxUnit) (s : State) : (popUnit u rest s).encMode = s.encMode := rfl
@[simp] theorem popUnit_busy (u : TxUnit) (rest : List TxUnit) (s : State) : (popUnit u rest s).busy = s.busy := rfl
@[simp] theorem popUnit_cur (u : TxUnit) (rest : List TxUnit) (s : State) : (popUnit u rest s).cur = u := rfl
@[simp] theorem popUnit_pos (u : TxUnit) (rest : List TxUnit) (s : State) : (popUnit u rest s).pos = s.pos := rfl
@[simp] theorem popUnit_tx (u : TxUnit) (rest : List TxUnit) (s : State) : (popUnit u rest s).tx = s.tx := rfl
@[simp] theorem popUnit_closeDone (u : TxUnit) (rest : List TxUnit) (s : State) : (popUnit u rest s).closeDone = s.closeDone := rfl
@[simp] theorem popUnit_drvErrSticky (u : TxUnit) (rest : List TxUnit) (s : State) : (popUnit u rest s).drvErrSticky = s.drvErrSticky := rfl
@[simp] theorem popUnit_sync (u : TxUnit) (rest : List TxUnit) (s : State) : (popUnit u rest s).sync = s.sync := rfl
@[simp] theorem popUnit_haveLast (u : TxUnit) (rest : List TxUnit) (s : State) : (popUnit u rest s).haveLast = s.haveLast := rfl
@[simp] theorem popUnit_lastTs (u : TxUnit) (rest : List TxUnit) (s : State) : (popUnit u rest s).lastTs = s.lastTs := rfl
@[simp] theorem popUnit_phase (u : TxUnit) (rest : List TxUnit) (s : State) : (popUnit u rest s).phase = s.phase := rfl
@[simp] theorem popUnit_run (u : TxUnit) (rest : List TxUnit) (s : State) : (popUnit u rest s).run = s.run := rfl
@[simp] theorem popUnit_slot (u : TxUnit) (rest : List TxUnit) (s : State) : (popUnit u rest s).slot = s.slot := rfl
@[simp] theorem popUnit_shreg (u : TxUnit) (rest : List TxUnit) (s : State) : (popUnit u rest s).shreg = s.shreg := rfl
@[simp] theorem popUnit_txLog (u : TxUnit) (rest : List TxUnit) (s : State) : (popUnit u rest s).txLog = s.txLog := rfl
@[simp] theorem popUnit_rxBytes (u : TxUnit) (rest : List TxUnit) (s : State) : (popUnit u rest s).rxBytes = s.rxBytes := rfl
@[simp] theorem popUnit_rxErrs (u : TxUnit) (rest : List TxUnit) (s : State) : (popUnit u rest s).rxErrs = s.rxErrs := rfl
@[simp] theorem popUnit_txSet (u : TxUnit) (rest : List TxUnit) (s : State) : (popUnit u rest s).txSet = s.txSet := rfl
@[simp] theorem popUnit_wrDone (u : TxUnit) (rest : List TxUnit) (s : State) : (popUnit u rest s).wrDone = s.wrDone := rfl
@[simp] theorem popUnit_rxEmit (u : TxUnit) (rest : List TxUnit) (s : State) : (popUnit u rest s).rxEmit = s.rxEmit := rfl
@[simp] theorem popUnit_rxErr (u : TxUnit) (rest : List TxUnit) (s : State) : (popUnit u rest s).rxErr = s.rxErr := rfl
@[simp] theorem popUnit_result (u : TxUnit) (rest : List TxUnit) (s : State) : (popUnit u rest s).result = s.result := rfl
@[simp] theorem popUnit_freeCount (u : TxUnit) (rest : List TxUnit) (s : State) : (popUnit u rest s).freeCount = s.freeCount := rfl
@[simp] theorem popUnit_cycle (u : TxUnit) (rest : List TxUnit) (s : State) : (popUnit u rest s).cycle = s.cycle := rfl
@[simp] theorem popUnit_ticks (u : TxUnit) (rest : List TxUnit) (s : State) : (popUnit u rest s).ticks = s.ticks := rfl

/-! ### setLast -/

@[simp] theorem setLast_cfg (ts : Nat) (s : State) : (setLast ts s).cfg = s.cfg := rfl
@[simp] theorem setLast_stim (ts : Nat) (s : State) : (setLast ts s).stim = s.stim := rfl
@[simp] theorem setLast_clkRun (ts : Nat) (s : State) : (setLast ts s).clkRun = s.clkRun := rfl
@[simp] theorem setLast_div (ts : Nat) (s : State) : (setLast ts s).div = s.div := rfl
@[simp] theorem setLast_q (ts : Nat) (s : State) : (setLast ts s).q = s.q := rfl
@[simp] theorem setLast_owner (ts : Nat) (s : State) : (setLast ts s).owner = s.owner := rfl
@[simp] theorem setLast_preLeft (ts : Nat) (s : State) : (setLast ts s).preLeft = s.preLeft := rfl
@[simp] theorem setLast_wrCount (ts : Nat) (s : State) : (setLast ts s).wrCount = s.wrCount := rfl
@[simp] theorem setLast_wrErr (ts : Nat) (s : State) : (setLast ts s).wrErr = s.wrErr := rfl
@[simp] theorem setLast_encMode (ts : Nat) (s : State) : (setLast ts s).encMode = s.encMode := rfl
@[simp] theorem setLast_busy (ts : Nat) (s : State) : (setLast ts s).busy = s.busy := rfl
@[simp] theorem setLast_cur (ts : Nat) (s : State) : (setLast ts s).cur = s.cur := rfl
@[simp] theorem setLast_pos (ts : Nat) (s : State) : (setLast ts s).pos = s.pos := rfl
@[simp] theorem setLast_tx (ts : Nat) (s : State) : (setLast ts s).tx = s.tx := rfl
@[simp] theorem setLast_closeDone (ts : Nat) (s : State) : (setLast ts s).closeDone = s.closeDone := rfl
@[simp] theorem setLast_drvErrSticky (ts : Nat) (s : State) : (setLast ts s).drvErrSticky = s.drvErrSticky := rfl
@[simp] theorem setLast_sync (ts : Nat) (s : State) : (setLast ts s).sync = s.sync := rfl
@[simp] theorem setLast_haveLast (ts : Nat) (s : State) : (setLast ts s).haveLast = s.haveLast := rfl
@[simp] theorem setLast_lastTs (ts : Nat) (s : State) : (setLast ts s).lastTs = ts := rfl
@[simp] theorem setLast_phase (ts : Nat) (s : State) : (setLast ts s).phase = s.phase := rfl
@[simp] theorem setLast_run (ts : Nat) (s : State) : (setLast ts s).run = s.run := rfl
@[simp] theorem setLast_slot (ts : Nat) (s : State) : (setLast ts s).slot = s.slot := rfl
@[simp] theorem setLast_shreg (ts : Nat) (s : State) : (setLast ts s).shreg = s.shreg := rfl
@[simp] theorem setLast_txLog (ts : Nat) (s : State) : (setLast ts s).txLog = s.txLog := rfl
@[simp] theorem setLast_rxBytes (ts : Nat) (s : State) : (setLast ts s).rxBytes = s.rxBytes := rfl
@[simp] theorem setLast_rxErrs (ts : Nat) (s : State) : (setLast ts s).rxErrs = s.rxErrs := rfl
@[simp] theorem setLast_txSet (ts : Nat) (s : State) : (setLast ts s).txSet = s.txSet := rfl
@[simp] theorem setLast_wrDone (ts : Nat) (s : State) : (setLast ts s).wrDone = s.wrDone := rfl
@[simp] theorem setLast_rxEmit (ts : Nat) (s : State) : (setLast ts s).rxEmit = s.rxEmit := rfl
@[simp] theorem setLast_rxErr (ts : Nat) (s : State) : (setLast ts s).rxErr = s.rxErr := rfl
@[simp] theorem setLast_result (ts : Nat) (s : State) : (setLast ts s).result = s.result := rfl
@[simp] theorem setLast_freeCount (ts : Nat) (s : State) : (setLast ts s).freeCount = s.freeCount := rfl
@[simp] theorem setLast_cycle (ts : Nat) (s : State) : (setLast ts s).cycle = s.cycle := rfl
@[simp] theorem setLast_ticks (ts : Nat) (s : State) : (setLast ts s).ticks = s.ticks := rfl

/-! ### driveFailure -/

@[simp] theorem driveFailure_cfg (s : State) : (driveFailure s).cfg = s.cfg := rfl
@[simp] theorem driveFailure_stim (s : State) : (driveFailure s).stim = s.stim := rfl
@[simp] theorem driveFailure_clkRun (s : State) : (driveFailure s).clkRun = s.clkRun := rfl
@[simp] theorem driveFailure_div (s : State) : (driveFailure s).div = s.div := rfl
@[simp] theorem driveFailure_q (s : State) : (driveFailure s).q = s.q := rfl
@[simp] theorem driveFailure_owner (s : State) : (driveFailure s).owner = s.owner := rfl
@[simp] theorem driveFailure_preLeft (s : State) : (driveFailure s).preLeft = s.preLeft := rfl
@[simp] theorem driveFailure_wrCount (s : State) : (driveFailure s).wrCount = s.wrCount := rfl
@[simp] theorem driveFailure_wrErr (s : State) : (driveFailure s).wrErr = s.wrErr := rfl
@[simp] theorem driveFailure_encMode (s : State) : (driveFailure s).encMode = s.encMode := rfl
@[simp] theorem driveFailure_busy (s : State) : (driveFailure s).busy = s.busy := rfl
@[simp] theorem driveFailure_cur (s : State) : (driveFailure s).cur = s.cur := rfl
@[simp] theorem driveFailure_pos (s : State) : (driveFailure s).pos = s.pos := rfl
@[simp] theorem driveFailure_tx (s : State) : (driveFailure s).tx = s.tx := rfl
@[simp] theorem driveFailure_closeDone (s : State) : (driveFailure s).closeDone = s.closeDone := rfl
@[simp] theorem driveFailure_drvErrSticky (s : State) : (driveFailure s).drvErrSticky = true := rfl
@[simp] theorem driveFailure_sync (s : State) : (driveFailure s).sync = s.sync := rfl
@[simp] theorem driveFailure_haveLast (s : State) : (driveFailure s).haveLast = s.haveLast := rfl
@[simp] theorem driveFailure_lastTs (s : State) : (driveFailure s).lastTs = s.lastTs := rfl
@[simp] theorem driveFailure_phase (s : State) : (driveFailure s).phase = s.phase := rfl
@[simp] theorem driveFailure_run (s : State) : (driveFailure s).run = s.run := rfl
@[simp] theorem driveFailure_slot (s : State) : (driveFailure s).slot = s.slot := rfl
@[simp] theorem driveFailure_shreg (s : State) : (driveFailure s).shreg = s.shreg := rfl
@[simp] theorem driveFailure_txLog (s : State) : (driveFailure s).txLog = s.txLog := rfl
@[simp] theorem driveFailure_rxBytes (s : State) : (driveFailure s).rxBytes = s.rxBytes := rfl
@[simp] theorem driveFailure_rxErrs (s : State) : (driveFailure s).rxErrs = s.rxErrs := rfl
@[simp] theorem driveFailure_txSet (s : State) : (driveFailure s).txSet = s.txSet := rfl
@[simp] theorem driveFailure_wrDone (s : State) : (driveFailure s).wrDone = s.wrDone := rfl
@[simp] theorem driveFailure_rxEmit (s : State) : (driveFailure s).rxEmit = s.rxEmit := rfl
@[simp] theorem driveFailure_rxErr (s : State) : (driveFailure s).rxErr = s.rxErr := rfl
@[simp] theorem driveFailure_result (s : State) : (driveFailure s).result = s.result := rfl
@[simp] theorem driveFailure_freeCount (s : State) : (driveFailure s).freeCount = s.freeCount := rfl
@[simp] theorem driveFailure_cycle (s : State) : (driveFailure s).cycle = s.cycle := rfl
@[simp] theorem driveFailure_ticks (s : State) : (driveFailure s).ticks = s.ticks := rfl

end Sys2Proof.Machine
end

