-- ==== Sys2Proof/Laws/Ops.lean ====
section
/-! SUPPORT. For each shared operation, once, everything it does: its closed form as one update of the state. -/

namespace Sys2Proof.Machine

/-! ### Raising causes -/

theorem resync_eq (c : Cause) (s : State) : resync c s =
    { s with sync := .searching, phase := .mid, slot := 0, shreg := 0x00, rxErrs := s.rxErrs ++ [c], rxErr := some c } := rfl

theorem slipSearching_eq (c : Cause) (s : State) :
    slipSearching c s = { s with run := 0, rxErrs := s.rxErrs ++ [c], rxErr := some c } := rfl

theorem cutBurst_eq (p : Nat) (s : State) : cutBurst p s =
    { s with wrErr := s.wrErr.set p true, owner := none, preLeft := 0, wrDone := s.wrDone.set p true } := rfl

theorem refuseCall_eq (p : Nat) (s : State) : refuseCall p s =
    { s with wrCount := s.wrCount.set p 0, wrErr := s.wrErr.set p true, wrDone := s.wrDone.set p true } := rfl

theorem raise_pinDriveFailure (p : Nat) (s : State) :
    raise .pinDriveFailure p s = { s with drvErrSticky := true } := rfl

theorem raise_closeReleaseFailure (p : Nat) (s : State) : raise .closeReleaseFailure p s = s := rfl

/-- While synced every decoder cause resynchronises (60_exceptions.md R243). -/
theorem raise_synced (c : Cause) (p : Nat) (s : State) (hc : c.isDecoder = true) (h : s.sync = .synced) :
    raise c p s = resync c s := by
  cases c <;> simp_all [raise, Cause.isDecoder]

/-- While searching, BIT_SLIP and TS_ORDER clear the run and report (60_exceptions.md R243). -/
theorem raise_slip_searching (c : Cause) (p : Nat) (s : State) (hc : c = .bitSlip ∨ c = .tsOrder)
    (h : s.sync = .searching) : raise c p s = slipSearching c s := by
  rcases hc with rfl | rfl <;> simp [raise, h]

/-- While searching, the other decoder causes cannot occur (60_exceptions.md R243). -/
theorem raise_other_searching (c : Cause) (p : Nat) (s : State) (hd : c.isDecoder = true) (hb : c ≠ .bitSlip)
    (ht : c ≠ .tsOrder) (h : s.sync = .searching) : raise c p s = s := by
  cases c <;> simp_all [raise, Cause.isDecoder]

theorem raise_writeAfterClose_owner (p : Nat) (s : State) (h : s.owner = some p) :
    raise .writeAfterClose p s = cutBurst p s := by simp [raise, h]

theorem raise_writeAfterClose_other (p : Nat) (s : State) (h : s.owner ≠ some p) :
    raise .writeAfterClose p s = refuseCall p s := by simp [raise, h]

/-! ### Encoder -/

/-- The closed form of a half-bit (43_encoder.md R174, R175, R177). -/
theorem emitHalf_eq (u : TxUnit) (k : Nat) (fail : Bool) (s : State) (hk : k < nhalves u) :
    emitHalf u k fail s =
      { s with tx := halflevel u k, txLog := s.txLog ++ [halflevel u k], txSet := true,
               drvErrSticky := s.drvErrSticky || fail, busy := decide (k + 1 < nhalves u),
               pos := if k + 1 < nhalves u then k + 1 else 0 } := by
  have hn : k = nhalves u - 1 ↔ ¬ k + 1 < nhalves u := by omega
  by_cases h : k + 1 < nhalves u <;> cases fail <;>
    simp [emitHalf, hn, h, raise, driveFailure, setLevel]

theorem nhalves_pos (u : TxUnit) : 0 < nhalves u := by
  unfold nhalves; split <;> omega

theorem one_lt_nhalves (u : TxUnit) : 1 < nhalves u := by
  unfold nhalves; split <;> omega

/-- Everything the encoder's step can do (43_encoder.md R171): continue, dequeue, complete a close, idle. -/
theorem encoderStep_cases (fail : Bool) (s : State) :
    (s.busy = true ∧ encoderStep fail s = emitHalf s.cur s.pos fail s) ∨
    (s.busy = false ∧ ∃ u rest, s.q = u :: rest ∧ encoderStep fail s = emitHalf u 0 fail (popUnit u rest s)) ∨
    (s.busy = false ∧ s.q = [] ∧ s.encMode = .closing ∧ encoderStep fail s = completeClose s) ∨
    (s.busy = false ∧ s.q = [] ∧ s.encMode ≠ .closing ∧ encoderStep fail s = s) := by
  unfold encoderStep
  cases hb : s.busy
  · cases hq : s.q with
    | cons u rest => exact .inr (.inl ⟨rfl, u, rest, rfl, by simp⟩)
    | nil =>
      by_cases hm : s.encMode = .closing
      · exact .inr (.inr (.inl ⟨rfl, rfl, hm, by simp [hm]⟩))
      · exact .inr (.inr (.inr ⟨rfl, rfl, hm, by simp [hm]⟩))
  · exact .inl ⟨rfl, by simp⟩

/-! ### Arbiter and close -/

/-- The closed form of CLOSE (43_encoder.md R185). -/
theorem closeEvent_eq (s : State) : closeEvent s =
    { s with encMode := .closing, owner := none, preLeft := 0,
             wrErr := match s.owner with | some p => s.wrErr.set p true | none => s.wrErr,
             wrDone := match s.owner with | some p => s.wrDone.set p true | none => s.wrDone } := by
  cases h : s.owner <;> simp [closeEvent, h, raise, cutBurst, pulseDone]

theorem preEvent_eq (s : State) :
    preEvent s = { s with preLeft := s.preLeft - 1, q := s.q ++ [TxUnit.preamble] } := rfl

theorem byteEvent_eq (p : Nat) (b : Byte) (s : State) : byteEvent p b s =
    { s with wrCount := s.wrCount.set p (s.wrCount.getD p 0 + 1), q := s.q ++ [TxUnit.frame b] } := rfl

theorem endEvent_eq (p : Nat) (s : State) :
    endEvent p s = { s with owner := none, wrDone := s.wrDone.set p true } := rfl

/-- Everything a refusal can do (42_queue_arbiter.md R152). -/
theorem refuseEvent_eq (p : Nat) (s : State) (h : s.owner ≠ some p) : refuseEvent p s =
    { s with wrCount := s.wrCount.set p 0, wrErr := s.wrErr.set p true, wrDone := s.wrDone.set p true } := by
  simp [refuseEvent, raise, h, refuseCall, pulseDone]

/-! ### Conditions -/

theorem tickDue_iff (s : State) : tickDue s = true ↔ s.clkRun = true ∧ s.div = s.cfg.half - 1 := by
  simp [tickDue]

theorem hasRoom_iff (s : State) : hasRoom s = true ↔ s.q.length < s.cfg.qdepth := by simp [hasRoom]

theorem canPush_iff (u : TxUnit) (s : State) :
    canPush u s = true ↔ s.encMode = .run ∧ u.creatable = true ∧ s.q.length < s.cfg.qdepth := by
  simp [canPush, hasRoom, and_assoc]

theorem canGrant_iff (s : State) : canGrant s = true ↔ s.encMode = .run ∧ s.owner = none := by simp [canGrant]

theorem canPre_iff (s : State) :
    canPre s = true ↔ s.encMode = .run ∧ s.owner ≠ none ∧ 0 < s.preLeft ∧ s.q.length < s.cfg.qdepth := by
  simp [canPre, hasRoom, and_assoc]

theorem canByte_iff (p : Nat) (s : State) :
    canByte p s = true ↔ s.encMode = .run ∧ s.owner = some p ∧ s.preLeft = 0 ∧ s.q.length < s.cfg.qdepth := by
  simp [canByte, hasRoom, and_assoc]

theorem canEnd_iff (p : Nat) (s : State) :
    canEnd p s = true ↔ s.encMode = .run ∧ s.owner = some p ∧ s.preLeft = 0 := by simp [canEnd, and_assoc]

theorem canRefuse_iff (p : Nat) (s : State) : canRefuse p s = true ↔ s.encMode ≠ .run ∧ s.owner ≠ some p := by
  simp [canRefuse]

theorem canClose_iff (s : State) : canClose s = true ↔ s.encMode = .run := by simp [canClose]

/-! ### Decoder -/

/-- The decoder's part of the state, and the frame of every decoder operation: nothing outside it is written. -/
def withDecoderOf (s t : State) : State :=
  { s with sync := t.sync, haveLast := t.haveLast, lastTs := t.lastTs, phase := t.phase, run := t.run, slot := t.slot,
           shreg := t.shreg, rxBytes := t.rxBytes, rxErrs := t.rxErrs, rxEmit := t.rxEmit, rxErr := t.rxErr }

/-- Everything a delivered bit can do (44_decoder.md R210 to R212). -/
theorem deliver_cases (b : Bool) (s : State) (hs : s.sync = .synced) :
    (s.slot = 0 ∧ b = false ∧ deliver b s = { s with slot := 1, shreg := 0x00 }) ∨
    (s.slot = 0 ∧ b = true ∧ deliver b s = resync .framingStart s) ∨
    (1 ≤ s.slot ∧ s.slot ≤ 8 ∧ deliver b s = deliverData b s) ∨
    (9 ≤ s.slot ∧ b = true ∧ deliver b s = { emitByte s.shreg s with slot := 0 }) ∨
    (9 ≤ s.slot ∧ b = false ∧ deliver b s = resync .framingStop s) := by
  unfold deliver
  by_cases h0 : s.slot = 0
  · cases b <;> simp [h0, deliverStart, raise, hs]
  · by_cases h8 : s.slot ≤ 8
    · simp [h0, h8]; omega
    · cases b <;> simp [h0, h8, deliverStop, raise, hs] <;> omega

theorem raise_decoder_frame (c : Cause) (s : State) (hc : c.isDecoder = true) :
    raise c 0 s = withDecoderOf s (raise c 0 s) := by
  cases h : s.sync <;> cases c <;> simp_all [raise, Cause.isDecoder] <;> rfl

theorem deliver_frame (b : Bool) (s : State) : deliver b s = withDecoderOf s (deliver b s) := by
  unfold deliver deliverStart deliverData deliverStop
  split_ifs <;> first | exact raise_decoder_frame _ _ rfl | rfl

/-- Everything an edge can do (44_decoder.md R201, R217). -/
theorem edgeEvent_cases (d : Dir) (ts : Nat) (s : State) :
    (s.haveLast = false ∧ edgeEvent d ts s = firstEdge ts s) ∨
    (s.haveLast = true ∧
      ((s.sync = .searching ∧ edgeClass s ts = .halfIv ∧ edgeEvent d ts s = searchHalf (setLast ts s)) ∨
       (s.sync = .searching ∧ edgeClass s ts = .fullIv ∧ edgeEvent d ts s = searchFull d (setLast ts s)) ∨
       (s.sync = .searching ∧ edgeClass s ts = .neither ∧
          edgeEvent d ts s = slipSearching (neitherCause s ts) (setLast ts s)) ∨
       (s.sync = .synced ∧ edgeClass s ts = .halfIv ∧ edgeEvent d ts s = syncHalf d (setLast ts s)) ∨
       (s.sync = .synced ∧ edgeClass s ts = .fullIv ∧ edgeEvent d ts s = syncFull d (setLast ts s)) ∨
       (s.sync = .synced ∧ edgeClass s ts = .neither ∧
          edgeEvent d ts s = resync (neitherCause s ts) { setLast ts s with run := 0 }))) := by
  have hn : neitherCause s ts = .bitSlip ∨ neitherCause s ts = .tsOrder := by
    unfold neitherCause; split <;> simp
  unfold edgeEvent
  cases hl : s.haveLast
  · simp
  · cases hs : s.sync <;> cases hc : edgeClass s ts <;> simp [searchNeither, syncNeither]
    · exact raise_slip_searching _ _ _ hn (by simpa using hs)
    · exact raise_synced _ _ _ (by rcases hn with h | h <;> simp [h, Cause.isDecoder]) (by simpa using hs)

theorem syncHalf_frame (d : Dir) (s : State) : syncHalf d s = withDecoderOf s (syncHalf d s) := by
  unfold syncHalf
  split
  · rfl
  · conv => lhs; rw [deliver_frame]
    rfl

theorem syncFull_frame (d : Dir) (s : State) : syncFull d s = withDecoderOf s (syncFull d s) := by
  unfold syncFull
  split
  · conv => lhs; rw [deliver_frame]
    rfl
  · conv => lhs; rw [raise_decoder_frame _ _ rfl]
    rfl

/-- An edge writes the decoder's part of the state alone (44_decoder.md R200). -/
theorem edgeEvent_frame (d : Dir) (ts : Nat) (s : State) : edgeEvent d ts s = withDecoderOf s (edgeEvent d ts s) := by
  rcases edgeEvent_cases d ts s with ⟨-, h⟩ | ⟨-, ⟨-, -, h⟩ | ⟨-, -, h⟩ | ⟨-, -, h⟩ | ⟨-, -, h⟩ | ⟨-, -, h⟩ | ⟨-, -, h⟩⟩ <;>
    rw [h]
  · rfl
  · rfl
  · unfold searchFull; split <;> rfl
  · rfl
  · conv => lhs; rw [syncHalf_frame]
    rfl
  · conv => lhs; rw [syncFull_frame]
    rfl
  · rfl

end Sys2Proof.Machine
end

