-- ==== Sys2Proof/Laws/Cycle.lean ====
section
/-! SUPPORT. What one tick, one arbiter decision and one cycle can do (43_encoder.md R171, 42_queue_arbiter.md R146 to R152,
60_exceptions.md R250), and runs of operations put together. -/

namespace Sys2Proof.Machine

/-! ### Edges -/

/-- The operation of an edge is the edge event (44_decoder.md R201). -/
theorem exec_edgeInstr (d : Dir) (ts : Nat) (s : State) : exec (edgeInstr d ts) s = .next (edgeEvent d ts s) := by
  cases d <;> rfl

/-- The row of a slot delivers the bit (44_decoder.md R201, R210 to R212). -/
theorem exec_deliverInstr (b : Bool) (s : State) (hs : s.sync = .synced) (h9 : s.slot ≤ 9) :
    exec (deliverInstr s.slot b) s = .next (deliver b s) := by
  unfold deliverInstr deliver
  split_ifs with h1 h2
  · simp [exec, execDeliverStart, delivers, hs, h1]
  · have : 1 ≤ s.slot := by omega
    simp [exec, execDeliverData, delivers, hs, h2, this]
  · have : s.slot = 9 := by omega
    simp [exec, execDeliverStop, delivers, hs, this]

/-- The class and the cause of an interval whose end is not before its start. -/
theorem edge_of_le (s : State) (ts : Nat) (h : s.lastTs ≤ ts) :
    edgeClass s ts = classify s.cfg (ts - s.lastTs) ∧ neitherCause s ts = .bitSlip ∧ tsBad s ts = false := by
  simp [edgeClass, tsBad, neitherCause]
  omega

/-- The class and the cause when the timestamp decreases (44_decoder.md R203). -/
theorem edge_of_lt (s : State) (ts : Nat) (h : ts < s.lastTs) :
    edgeClass s ts = .neither ∧ neitherCause s ts = .tsOrder ∧ tsBad s ts = true := by
  simp [edgeClass, tsBad, neitherCause]
  omega

/-! ### Ticks -/

/-- A half-bit writes the line, its log, the sticky bit and the place in the unit alone. -/
theorem emitHalf_frame (u : TxUnit) (k : Nat) (f : Bool) (s : State) :
    ∃ a b c d e g, emitHalf u k f s =
      { s with tx := a, txLog := b, txSet := c, drvErrSticky := d, busy := e, pos := g } := by
  simp only [emitHalf]
  split <;> cases f <;> exact ⟨_, _, _, _, _, _, rfl⟩

/-- What a tick leaves to the arbiter: only the head of the queue can go. -/
structure TickFrame (s t : State) : Prop where
  cfg   : t.cfg = s.cfg
  owner : t.owner = s.owner
  pre   : t.preLeft = s.preLeft
  run   : t.encMode = .run ↔ s.encMode = .run
  queue : ∃ l, l ++ t.q = s.q
  count : t.wrCount = s.wrCount
  err   : t.wrErr = s.wrErr

theorem tickEvent_frame (f : Bool) (s : State) : TickFrame s (tickEvent f s) := by
  rcases encoderStep_cases f s with ⟨-, he⟩ | ⟨-, u, rest, hq, he⟩ | ⟨-, -, hm, he⟩ | ⟨-, -, -, he⟩ <;>
    simp only [tickEvent, he]
  · obtain ⟨a, b, c, d, e, g, h⟩ := emitHalf_frame s.cur s.pos f s
    rw [h]
    exact ⟨rfl, rfl, rfl, Iff.rfl, ⟨[], rfl⟩, rfl, rfl⟩
  · obtain ⟨a, b, c, d, e, g, h⟩ := emitHalf_frame u 0 f (popUnit u rest s)
    rw [h]
    exact ⟨rfl, rfl, rfl, Iff.rfl, ⟨[u], hq.symm⟩, rfl, rfl⟩
  · refine ⟨rfl, rfl, rfl, ?_, ⟨[], rfl⟩, rfl, rfl⟩
    simp [completeClose, hm]
  · exact ⟨rfl, rfl, rfl, Iff.rfl, ⟨[], rfl⟩, rfl, rfl⟩

/-! ### The arbiter's event -/

/-- Everything the arbiter can decide in a cycle (42_queue_arbiter.md R146 to R149, R151). -/
theorem arbiterEvent_cases (inp : PortIn) (s : State) (i : Instr) (h : arbiterEvent inp s = some i) :
    closing inp s = false ∧
    ((canGrant s = true ∧ ∃ p, i = .wgrant p ∧ p < s.cfg.nprod ∧ inp.wrReq.getD p false = true) ∨
     (canPre s = true ∧ i = .wpre) ∨ (∃ p b, canByte p s = true ∧ i = .wbyte p b) ∨
     (∃ p, canEnd p s = true ∧ i = .wend p)) := by
  unfold arbiterEvent at h
  split at h
  · cases h
  · refine ⟨by simp_all, ?_⟩
    split at h
    · rename_i hg
      refine .inl ⟨hg, ?_⟩
      simp only [picked, Option.map_eq_some_iff] at h
      obtain ⟨p, hp, rfl⟩ := h
      have := List.mem_of_getElem? hp
      simp only [requesters, wrReqOf, List.mem_filter, List.mem_range] at this
      exact ⟨p, rfl, this.1, this.2⟩
    · split at h
      · cases h
        exact .inr (.inl ⟨by assumption, rfl⟩)
      · split at h
        · cases h
        · split at h
          · split at h
            · rename_i hb
              cases h
              simp only [Bool.and_eq_true] at hb
              exact .inr (.inr (.inl ⟨_, _, hb.1, rfl⟩))
            · cases h
          · split at h
            · cases h
              exact .inr (.inr (.inr ⟨_, by assumption, rfl⟩))
            · cases h

/-- Everything an edge sample can present. -/
theorem edgeInput_cases (inp : PortIn) (i : Instr) (h : edgeInput inp = some i) :
    i = edgeInstr (Dir.ofBit inp.edgeDir) inp.edgeTs := by
  unfold edgeInput at h
  split at h
  · split at h <;> rename_i hd <;> cases h <;> rw [hd] <;> rfl
  · cases h

/-- The events of a cycle without `rst`, but for the divider's step. -/
theorem sampledEvents_cases (inp : PortIn) (s : State) (i : Instr) (h : i ∈ sampledEvents inp s) :
    (tickDue s = true ∧ i = .tick inp.drvErr) ∨ (closing inp s = true ∧ i = .close) ∨ arbiterEvent inp s = some i ∨
    (∃ p ∈ refusedProducers inp s, i = .wrefuse p) ∨ i = edgeInstr (Dir.ofBit inp.edgeDir) inp.edgeTs := by
  simp only [sampledEvents, List.mem_append, List.mem_map, Option.mem_toList, or_assoc] at h
  rcases h with h | h | h | ⟨p, hp, rfl⟩ | h
  · split at h
    · exact .inl ⟨by assumption, by simpa using h⟩
    · cases h
  · split at h
    · exact .inr (.inl ⟨by assumption, by simpa using h⟩)
    · cases h
  · exact .inr (.inr (.inl h))
  · exact .inr (.inr (.inr (.inl ⟨p, hp, rfl⟩)))
  · exact .inr (.inr (.inr (.inr (edgeInput_cases _ _ h))))

/-! ### A cycle -/

theorem sampledEvents_wellFormed (inp : PortIn) (s : State) (i : Instr) (h : i ∈ sampledEvents inp s) :
    i.wellFormed = true := by
  rcases sampledEvents_cases _ _ _ h with ⟨-, rfl⟩ | ⟨-, rfl⟩ | h | ⟨p, -, rfl⟩ | rfl
  · rfl
  · rfl
  · obtain ⟨-, ⟨-, p, rfl, -⟩ | ⟨-, rfl⟩ | ⟨p, b, -, rfl⟩ | ⟨p, -, rfl⟩⟩ := arbiterEvent_cases _ _ _ h <;> rfl
  · rfl
  · cases Dir.ofBit inp.edgeDir <;> rfl

theorem sampledEvents_ne (inp : PortIn) (s : State) (i : Instr) (h : i ∈ sampledEvents inp s) :
    i ≠ .reset ∧ i ≠ .clkstep := by
  rcases sampledEvents_cases _ _ _ h with ⟨-, rfl⟩ | ⟨-, rfl⟩ | h | ⟨p, -, rfl⟩ | rfl
  · simp
  · simp
  · obtain ⟨-, ⟨-, p, rfl, -⟩ | ⟨-, rfl⟩ | ⟨p, b, -, rfl⟩ | ⟨p, -, rfl⟩⟩ := arbiterEvent_cases _ _ _ h <;> simp
  · simp
  · cases Dir.ofBit inp.edgeDir <;> simp [edgeInstr]

/-- No event of a cycle but RESET and CLKSTEP touches the parameters, the divider, the cycle number or the stimuli. -/
theorem applyEvent_frame (i : Instr) (s : State) (h1 : i ≠ .reset) (h2 : i ≠ .clkstep) :
    (applyEvent s i).cfg = s.cfg ∧ (applyEvent s i).div = s.div ∧ (applyEvent s i).cycle = s.cycle ∧
      (applyEvent s i).stim = s.stim := by
  cases i <;> try exact ⟨rfl, rfl, rfl, rfl⟩
  case reset => exact absurd rfl h1
  case clkstep => exact absurd rfl h2
  case tick f =>
    simp only [applyEvent]
    rcases encoderStep_cases f s with ⟨-, he⟩ | ⟨-, u, rest, -, he⟩ | ⟨-, -, -, he⟩ | ⟨-, -, -, he⟩ <;>
      simp only [tickEvent, he]
    · obtain ⟨a, b, c, d, e, g, h⟩ := emitHalf_frame s.cur s.pos f s
      rw [h]
      exact ⟨rfl, rfl, rfl, rfl⟩
    · obtain ⟨a, b, c, d, e, g, h⟩ := emitHalf_frame u 0 f (popUnit u rest s)
      rw [h]
      exact ⟨rfl, rfl, rfl, rfl⟩
    · exact ⟨rfl, rfl, rfl, rfl⟩
    · simp
  case edgeR ts => simp only [applyEvent]; rw [edgeEvent_frame]; exact ⟨rfl, rfl, rfl, rfl⟩
  case edgeF ts => simp only [applyEvent]; rw [edgeEvent_frame]; exact ⟨rfl, rfl, rfl, rfl⟩
  case wrefuse p => simp only [applyEvent, refuseEvent, raise]; split <;> exact ⟨rfl, rfl, rfl, rfl⟩
  case close => simp [applyEvent, closeEvent_eq]

theorem foldl_applyEvent_frame (l : List Instr) (s : State) (h : ∀ i ∈ l, i ≠ .reset ∧ i ≠ .clkstep) :
    (l.foldl applyEvent s).cfg = s.cfg ∧ (l.foldl applyEvent s).div = s.div ∧
      (l.foldl applyEvent s).cycle = s.cycle ∧ (l.foldl applyEvent s).stim = s.stim := by
  induction l generalizing s with
  | nil => exact ⟨rfl, rfl, rfl, rfl⟩
  | cons i l ih =>
    have h1 := applyEvent_frame i s (h i (by simp)).1 (h i (by simp)).2
    have h2 := ih (applyEvent s i) (fun j hj => h j (by simp [hj]))
    simp only [List.foldl_cons]
    exact ⟨h2.1.trans h1.1, h2.2.1.trans h1.2.1, h2.2.2.1.trans h1.2.2.1, h2.2.2.2.trans h1.2.2.2⟩

/-- A cycle without `rst`: its events, the divider, the cycle number (60_exceptions.md R250, 40_clock.md R121). -/
theorem clkCycle_eq (inp : PortIn) (s : State) (hr : inp.rst = false) : clkCycle inp s =
    { (sampledEvents inp s).foldl applyEvent s with
      div := if s.clkRun then (if s.div = s.cfg.half - 1 then 0 else s.div + 1) else s.div,
      cycle := s.cycle + 1 } := by
  have hf := foldl_applyEvent_frame (sampledEvents inp s) s (sampledEvents_ne inp s)
  simp only [clkCycle, cycleEvents, hr, List.foldl_append, Bool.false_eq_true, if_false]
  split
  · simp [applyEvent, clockStep, hf]
  · simp [← hf.2.1]

/-- A cycle with `rst` is a reset (70_reset_and_hazards.md R280). -/
theorem clkCycle_rst (inp : PortIn) (s : State) (hr : inp.rst = true) : clkCycle inp s = doReset s := by
  simp [clkCycle, cycleEvents, hr, applyEvent, doReset, State.resetWith]

/-- The ports of a step that answers a next state (10_state.md R24). -/
theorem stepOutputs_of_next (s t : State) (h : step s = .next t) : stepOutputs s = some (outputs s t) := by
  have h' : stepStimulus s = .next t := h
  simp [stepOutputs, h']

/-! ### Runs of operations -/

theorem execAll_append (l m : List Instr) (s t : State) (h : execAll l s = .next t) :
    execAll (l ++ m) s = execAll m t := by
  induction l generalizing s with
  | nil => cases h; rfl
  | cons i l ih =>
    simp only [execAll, List.cons_append] at h ⊢
    cases he : exec i s <;> simp only [he] at h ⊢ <;> first | exact ih _ h | cases h

end Sys2Proof.Machine
end

