-- ==== Sys2Proof/Laws/Invariant.lean ====
section
/-! SUPPORT. Each operation of Ops.lean keeps the invariant of Safety.lean under the condition of its event. -/

namespace Sys2Proof.Machine

theorem setResult_inv (r : FnResult) (s : State) (h : CoreInv s) : CoreInv (setResult r s) := { h with }

theorem driveFailure_inv (s : State) (h : CoreInv s) : CoreInv (driveFailure s) := { h with }

theorem beginStep_inv (rest : List Stimulus) (s : State) (h : CoreInv s) :
    CoreInv (beginStep rest s) := { h with done_ports := by simp [beginStep] }

theorem resync_inv (c : Cause) (s : State) (h : CoreInv s) (hc : c.isDecoder = true) : CoreInv (resync c s) :=
  { h with
    searching_clear := fun _ => ⟨rfl, rfl, rfl⟩
    slot_bound := Nat.zero_le _
    before_edge := fun hl => ⟨rfl, (h.before_edge hl).2⟩
    errs_decoder := by
      intro c' hc'; simp [resync_eq] at hc'; rcases hc' with h1 | rfl; exact h.errs_decoder _ h1; exact hc }

theorem slipSearching_inv (c : Cause) (s : State) (h : CoreInv s) (hc : c.isDecoder = true) :
    CoreInv (slipSearching c s) :=
  { h with
    before_edge := fun hl => ⟨(h.before_edge hl).1, rfl⟩
    run_bound := fun _ _ => Nat.zero_le _
    errs_decoder := by
      intro c' hc'; simp [slipSearching_eq] at hc'; rcases hc' with h1 | rfl; exact h.errs_decoder _ h1; exact hc }

theorem raise_decoder_inv (c : Cause) (p : Nat) (s : State) (h : CoreInv s) (hc : c.isDecoder = true) :
    CoreInv (raise c p s) := by
  cases c <;> simp [Cause.isDecoder] at hc <;> simp only [raise] <;> split <;>
    first | exact h | exact resync_inv _ _ h rfl | exact slipSearching_inv _ _ h rfl

theorem clearRun_inv (s : State) (h : CoreInv s) : CoreInv { s with run := 0 } :=
  { h with before_edge := fun hl => ⟨(h.before_edge hl).1, rfl⟩, run_bound := fun _ _ => Nat.zero_le _ }

theorem sat_le (c : Params) (n m : Nat) (h : c.runMax = some m) : sat c n ≤ m := by simp [sat, h]

theorem searchHalf_inv (s : State) (h : CoreInv s) (hl : s.haveLast = true) :
    CoreInv { s with run := sat s.cfg (s.run + 1) } :=
  { h with before_edge := fun hl' => by simp [hl] at hl', run_bound := fun m hm => sat_le _ _ _ hm }

theorem setLast_inv (ts : Nat) (s : State) (h : CoreInv s) : CoreInv (setLast ts s) := { h with }

theorem setPhase_inv (ph : Phase) (s : State) (h : CoreInv s) (hs : s.sync = .synced) :
    CoreInv { s with phase := ph } :=
  { h with searching_clear := fun h' => by simp [hs] at h' }

theorem firstEdge_inv (ts : Nat) (s : State) (h : CoreInv s) : CoreInv (firstEdge ts s) :=
  { h with before_edge := fun hl' => by simp [firstEdge] at hl', run_bound := fun _ _ => Nat.zero_le _ }

theorem lock_inv (s : State) (h : CoreInv s) (hl : s.haveLast = true) : CoreInv (lock s) :=
  { h with searching_clear := fun h' => by simp [lock] at h'
           slot_bound := by simp [lock]
           before_edge := fun hl' => by simp [lock, hl] at hl'
           run_bound := fun _ _ => Nat.zero_le _ }

theorem deliverStart_inv (b : Bool) (s : State) (h : CoreInv s) (hs : s.sync = .synced) :
    CoreInv (deliverStart b s) := by
  unfold deliverStart; split
  · exact raise_decoder_inv _ _ _ h rfl
  · exact { h with searching_clear := fun h' => by simp [hs] at h'
                   slot_bound := by simp }

theorem deliverData_inv (b : Bool) (s : State) (h : CoreInv s) (hs : s.sync = .synced) (h8 : s.slot ≤ 8) :
    CoreInv (deliverData b s) :=
  { h with searching_clear := fun h' => by simp [deliverData, hs] at h'
           slot_bound := by simp [deliverData]; omega }

theorem deliverStop_inv (b : Bool) (s : State) (h : CoreInv s) (hs : s.sync = .synced) :
    CoreInv (deliverStop b s) := by
  unfold deliverStop; split
  · exact { h with searching_clear := fun h' => by simp [hs] at h'
                   slot_bound := by simp }
  · exact raise_decoder_inv _ _ _ h rfl

theorem deliver_inv (b : Bool) (s : State) (h : CoreInv s) (hs : s.sync = .synced) : CoreInv (deliver b s) := by
  unfold deliver; split_ifs with h1 h2
  · exact deliverStart_inv _ _ h hs
  · exact deliverData_inv _ _ h hs h2
  · exact deliverStop_inv _ _ h hs

theorem syncHalf_inv (d : Dir) (s : State) (h : CoreInv s) (hs : s.sync = .synced) (hl : s.haveLast = true) :
    CoreInv (syncHalf d s) := by
  have h1 := searchHalf_inv s h hl
  unfold syncHalf; split
  · exact setPhase_inv _ _ h1 hs
  · exact deliver_inv _ _ (setPhase_inv _ _ h1 hs) hs

theorem syncFull_inv (d : Dir) (s : State) (h : CoreInv s) (hs : s.sync = .synced) : CoreInv (syncFull d s) := by
  have h1 := clearRun_inv s h
  unfold syncFull; split
  · exact deliver_inv _ _ h1 hs
  · exact raise_decoder_inv _ _ _ h1 rfl

theorem neitherCause_isDecoder (s : State) (ts : Nat) : (neitherCause s ts).isDecoder = true := by
  unfold neitherCause
  split <;> rfl

theorem searchFull_inv (d : Dir) (s : State) (h : CoreInv s) (hl : s.haveLast = true) : CoreInv (searchFull d s) := by
  unfold searchFull; split
  · exact lock_inv _ h hl
  · exact clearRun_inv _ h

theorem edgeEvent_inv (d : Dir) (ts : Nat) (s : State) (h : CoreInv s) : CoreInv (edgeEvent d ts s) := by
  unfold edgeEvent
  cases hl : s.haveLast
  · exact firstEdge_inv _ _ h
  · have h1 := setLast_inv ts s h
    simp only [if_true]
    split
    · exact searchHalf_inv _ h1 hl
    · exact searchFull_inv _ _ h1 hl
    · exact raise_decoder_inv _ _ _ h1 (neitherCause_isDecoder _ _)
    · exact syncHalf_inv _ _ h1 (by assumption) hl
    · exact syncFull_inv _ _ h1 (by assumption)
    · exact raise_decoder_inv _ _ _ (clearRun_inv _ h1) (neitherCause_isDecoder _ _)

theorem halflevel_last (u : TxUnit) (h : u.creatable = true) : halflevel u (nhalves u - 1) = .low := by
  obtain ⟨f, v⟩ := u
  cases f
  · simp [TxUnit.creatable] at h; subst h; decide
  · simp only [halflevel, nhalves, unitBits]; simp [byteBits, cellLevel, Level.ofBit]

theorem emitHalf_inv (u : TxUnit) (k : Nat) (fail : Bool) (s : State) (h : CoreInv s)
    (hu : u.creatable = true) (hk : k < nhalves u) (hm : s.encMode ≠ .stopped) (hc : s.cur = u) :
    CoreInv (emitHalf u k fail s) := by
  rw [emitHalf_eq _ _ _ _ hk]
  refine { h with drained_stopped := fun h' => absurd h' hm, unit_in_flight := ?_, idle_line := ?_ }
  · simp [hc]; intro h'; simp [h', hu]
  · intro h'
    have h2 : ¬ k + 1 < nhalves u := by simpa using h'
    have : k = nhalves u - 1 := by omega
    simp only [h2, if_false, true_and]
    rw [this]; exact halflevel_last u hu

theorem popUnit_inv (u : TxUnit) (rest : List TxUnit) (s : State) (h : CoreInv s) (hq : s.q = u :: rest)
    (hb : s.busy = false) :
    CoreInv (popUnit u rest s) :=
  { h with queue_bound := by have := h.queue_bound; simp [hq] at this; simp [popUnit]; omega
           queue_units := fun v hv => h.queue_units v (by rw [hq]; exact List.mem_cons_of_mem _ hv)
           drained_stopped := fun h' => by have := (h.drained_stopped h').1; simp [hq] at this
           unit_in_flight := fun h' => by simp [popUnit, hb] at h' }

theorem encoderStep_inv (fail : Bool) (s : State) (h : CoreInv s) (hr : s.clkRun = true) :
    CoreInv (encoderStep fail s) := by
  have hm : s.encMode ≠ .stopped := fun h' => by have := h.clock_stopped.2 h'; simp [hr] at this
  rcases encoderStep_cases fail s with ⟨hb, he⟩ | ⟨hb, u, rest, hq, he⟩ | ⟨hb, hq, hm', he⟩ | ⟨hb, hq, hm', he⟩ <;> rw [he]
  · have := h.unit_in_flight hb
    exact emitHalf_inv _ _ _ _ h this.2.2.1 this.2.1 hm rfl
  · exact emitHalf_inv _ _ _ _ (popUnit_inv _ _ _ h hq hb) (h.queue_units u (by simp [hq])) (nhalves_pos u) hm rfl
  · exact { h with owner_port := fun p hp => by have := (h.owner_port p hp).2; simp [hm'] at this
                   err_closed := fun _ _ => by simp [completeClose]
                   done_stopped := by simp [completeClose]
                   clock_stopped := by simp [completeClose]
                   drained_stopped := fun _ => ⟨hq, hb⟩ }
  · exact h

theorem tickEvent_inv (fail : Bool) (s : State) (h : CoreInv s) (hr : s.clkRun = true) :
    CoreInv (tickEvent fail s) := { encoderStep_inv fail s h hr with }

theorem pushUnit_inv (u : TxUnit) (s : State) (h : CoreInv s) (hu : u.creatable = true)
    (hq : s.q.length < s.cfg.qdepth) (hm : s.encMode = .run) :
    CoreInv (pushUnit u s) :=
  { h with queue_bound := by simp [pushUnit]; omega
           queue_units := by intro v hv; simp [pushUnit] at hv; rcases hv with h1 | rfl; exact h.queue_units _ h1; exact hu
           drained_stopped := fun h' => by simp [pushUnit, hm] at h' }

theorem grantEvent_inv (p : Nat) (s : State) (h : CoreInv s) (hp : p < s.cfg.nprod) (hg : canGrant s = true) :
    CoreInv (grantEvent p s) := by
  rw [canGrant_iff] at hg
  exact { h with owner_port := by simp [grantEvent, hp, hg.1]
                 pre_bound := by simp [grantEvent]
                 pre_owner := by simp [grantEvent]
                 count_ports := by simp [grantEvent, h.count_ports]
                 err_ports := by simp [grantEvent, h.err_ports]
                 err_closed := by
                  intro q hq
                  by_cases hqp : q = p
                  · subst hqp; simp [grantEvent, h.err_ports, hp] at hq
                  · apply h.err_closed q; simp [grantEvent, Ne.symm hqp] at hq; simpa using hq }

theorem preEvent_inv (s : State) (h : CoreInv s) (hg : canPre s = true) : CoreInv (preEvent s) := by
  rw [canPre_iff] at hg
  exact pushUnit_inv _ _ { h with
    pre_bound := by have := h.pre_bound; simp; omega
    pre_owner := by intro h'; exact absurd h' hg.2.1 } rfl hg.2.2.2 hg.1

theorem byteEvent_inv (p : Nat) (b : Byte) (s : State) (h : CoreInv s) (hg : canByte p s = true) :
    CoreInv (byteEvent p b s) := by
  rw [canByte_iff] at hg
  exact pushUnit_inv _ _ { h with count_ports := by simp [h.count_ports] } rfl hg.2.2.2 hg.1

theorem endEvent_inv (p : Nat) (s : State) (h : CoreInv s) (hg : canEnd p s = true) : CoreInv (endEvent p s) := by
  rw [canEnd_iff] at hg
  exact { h with owner_port := by simp [endEvent]
                 pre_owner := by simp [endEvent, hg.2.2]
                 done_ports := by simp [endEvent, h.done_ports] }

theorem refuseEvent_inv (p : Nat) (s : State) (h : CoreInv s) (hg : canRefuse p s = true) :
    CoreInv (refuseEvent p s) := by
  rw [canRefuse_iff] at hg
  rw [refuseEvent_eq _ _ hg.2]
  exact { h with count_ports := by simp [h.count_ports]
                 err_ports := by simp [h.err_ports]
                 done_ports := by simp [h.done_ports]
                 err_closed := fun _ _ => hg.1 }

theorem closeEvent_inv (s : State) (h : CoreInv s) (hg : canClose s = true) : CoreInv (closeEvent s) := by
  rw [canClose_iff] at hg
  rw [closeEvent_eq]
  have h1 := h.done_stopped; have h2 := h.clock_stopped
  exact { h with
          owner_port := by simp
          pre_bound := by simp
          pre_owner := by simp
          err_ports := by simp; split <;> simp [h.err_ports]
          done_ports := by simp; split <;> simp [h.done_ports]
          err_closed := by simp
          done_stopped := by simp [hg] at h1 ⊢; exact h1
          clock_stopped := by simp [hg] at h2 ⊢; exact h2
          drained_stopped := by simp }

theorem clockStep_inv (s : State) (h : CoreInv s) : CoreInv (clockStep s) :=
  { h with div_bound := by have := h.div_bound; simp [clockStep]; split <;> omega }

end Sys2Proof.Machine
end

