-- ==== Sys2Proof/Laws/PerInstr.lean ====
section
/-! SUPPORT. What holds of every operation as syntax, one lemma for each row of spec/opcode_table.json. -/

/-- The word of an operation stands at the format of its row and is not empty (30_encoding.md section 1). -/
def Sys2Proof.Laws.EncodeAtFormat.Statement (i : Sys2Proof.Instr) : Prop :=
  (Sys2Proof.encode i).fmt = i.format ∧ (Sys2Proof.encode i).bytes ≠ []

namespace Sys2Proof.Laws.EncodeAtFormat

theorem sym0 : Statement .sym0 :=
  ⟨rfl, List.cons_ne_nil _ _⟩

theorem sym1 : Statement .sym1 :=
  ⟨rfl, List.cons_ne_nil _ _⟩

theorem symLL : Statement .symLL :=
  ⟨rfl, List.cons_ne_nil _ _⟩

theorem symHH : Statement .symHH :=
  ⟨rfl, List.cons_ne_nil _ _⟩

theorem unitF (v : Byte) : Statement (.unitF v) :=
  ⟨rfl, List.cons_ne_nil _ _⟩

theorem unitU (v : Byte) : Statement (.unitU v) :=
  ⟨rfl, List.cons_ne_nil _ _⟩

theorem preamble : Statement .preamble :=
  ⟨rfl, List.cons_ne_nil _ _⟩

theorem burst (bs : List Byte) : Statement (.burst bs) :=
  ⟨rfl, List.cons_ne_nil _ _⟩

theorem qePreamble : Statement .qePreamble :=
  ⟨rfl, List.cons_ne_nil _ _⟩

theorem qeFramed (v : Byte) : Statement (.qeFramed v) :=
  ⟨rfl, List.cons_ne_nil _ _⟩

theorem qeReserved (v : Byte) : Statement (.qeReserved v) :=
  ⟨rfl, List.cons_ne_nil _ _⟩

theorem edgeR (ts : Nat) : Statement (.edgeR ts) :=
  ⟨rfl, List.cons_ne_nil _ _⟩

theorem edgeF (ts : Nat) : Statement (.edgeF ts) :=
  ⟨rfl, List.cons_ne_nil _ _⟩

theorem reset : Statement .reset :=
  ⟨rfl, List.cons_ne_nil _ _⟩

theorem clkstep : Statement .clkstep :=
  ⟨rfl, List.cons_ne_nil _ _⟩

theorem tick (fail : Bool) : Statement (.tick fail) :=
  ⟨rfl, List.cons_ne_nil _ _⟩

theorem wopen (p : Nat) : Statement (.wopen p) :=
  ⟨rfl, List.cons_ne_nil _ _⟩

theorem wgrant (p : Nat) : Statement (.wgrant p) :=
  ⟨rfl, List.cons_ne_nil _ _⟩

theorem wpre : Statement .wpre :=
  ⟨rfl, List.cons_ne_nil _ _⟩

theorem wbyte (p : Nat) (b : Byte) : Statement (.wbyte p b) :=
  ⟨rfl, List.cons_ne_nil _ _⟩

theorem wend (p : Nat) : Statement (.wend p) :=
  ⟨rfl, List.cons_ne_nil _ _⟩

theorem wrefuse (p : Nat) : Statement (.wrefuse p) :=
  ⟨rfl, List.cons_ne_nil _ _⟩

theorem close : Statement .close :=
  ⟨rfl, List.cons_ne_nil _ _⟩

theorem edgeFirst (dir : Dir) (ts : Nat) : Statement (.edgeFirst dir ts) :=
  ⟨rfl, List.cons_ne_nil _ _⟩

theorem edgeTsOrder (dir : Dir) (ts : Nat) : Statement (.edgeTsOrder dir ts) :=
  ⟨rfl, List.cons_ne_nil _ _⟩

theorem edgeSHalf (dir : Dir) (ts : Nat) : Statement (.edgeSHalf dir ts) :=
  ⟨rfl, List.cons_ne_nil _ _⟩

theorem edgeSFull (dir : Dir) (ts : Nat) : Statement (.edgeSFull dir ts) :=
  ⟨rfl, List.cons_ne_nil _ _⟩

theorem edgeSNeither (dir : Dir) (ts : Nat) : Statement (.edgeSNeither dir ts) :=
  ⟨rfl, List.cons_ne_nil _ _⟩

theorem edgeYHalf (dir : Dir) (ts : Nat) : Statement (.edgeYHalf dir ts) :=
  ⟨rfl, List.cons_ne_nil _ _⟩

theorem edgeYFull (dir : Dir) (ts : Nat) : Statement (.edgeYFull dir ts) :=
  ⟨rfl, List.cons_ne_nil _ _⟩

theorem edgeYNeither (dir : Dir) (ts : Nat) : Statement (.edgeYNeither dir ts) :=
  ⟨rfl, List.cons_ne_nil _ _⟩

theorem deliverStart (b : Bool) : Statement (.deliverStart b) :=
  ⟨rfl, List.cons_ne_nil _ _⟩

theorem deliverData (b : Bool) : Statement (.deliverData b) :=
  ⟨rfl, List.cons_ne_nil _ _⟩

theorem deliverStop (b : Bool) : Statement (.deliverStop b) :=
  ⟨rfl, List.cons_ne_nil _ _⟩

theorem resync (code : Cause) : Statement (.resync code) :=
  ⟨rfl, List.cons_ne_nil _ _⟩

theorem within (v r tol : Nat) : Statement (.within v r tol) :=
  ⟨rfl, List.cons_ne_nil _ _⟩

theorem classify (dt : Nat) : Statement (.classify dt) :=
  ⟨rfl, List.cons_ne_nil _ _⟩

theorem unitBits (u : TxUnit) : Statement (.unitBits u) :=
  ⟨rfl, List.cons_ne_nil _ _⟩

theorem nhalves (u : TxUnit) : Statement (.nhalves u) :=
  ⟨rfl, List.cons_ne_nil _ _⟩

theorem halflevel (u : TxUnit) (pos : Nat) : Statement (.halflevel u pos) :=
  ⟨rfl, List.cons_ne_nil _ _⟩

theorem bitval (dir : Dir) : Statement (.bitval dir) :=
  ⟨rfl, List.cons_ne_nil _ _⟩

theorem qops (op : QOp) : Statement (.qops op) :=
  ⟨by cases op <;> rfl, by cases op <;> exact List.cons_ne_nil _ _⟩

theorem levelLow : Statement .levelLow :=
  ⟨rfl, List.cons_ne_nil _ _⟩

theorem levelHigh : Statement .levelHigh :=
  ⟨rfl, List.cons_ne_nil _ _⟩

theorem dirFalling : Statement .dirFalling :=
  ⟨rfl, List.cons_ne_nil _ _⟩

theorem dirRising : Statement .dirRising :=
  ⟨rfl, List.cons_ne_nil _ _⟩

theorem modeRun : Statement .modeRun :=
  ⟨rfl, List.cons_ne_nil _ _⟩

theorem modeClosing : Statement .modeClosing :=
  ⟨rfl, List.cons_ne_nil _ _⟩

theorem modeStopped : Statement .modeStopped :=
  ⟨rfl, List.cons_ne_nil _ _⟩

theorem modeReserved : Statement .modeReserved :=
  ⟨rfl, List.cons_ne_nil _ _⟩

theorem syncSearching : Statement .syncSearching :=
  ⟨rfl, List.cons_ne_nil _ _⟩

theorem syncSynced : Statement .syncSynced :=
  ⟨rfl, List.cons_ne_nil _ _⟩

theorem phaseMid : Statement .phaseMid :=
  ⟨rfl, List.cons_ne_nil _ _⟩

theorem phaseBoundary : Statement .phaseBoundary :=
  ⟨rfl, List.cons_ne_nil _ _⟩

theorem causePinDriveFailure : Statement .causePinDriveFailure :=
  ⟨rfl, List.cons_ne_nil _ _⟩

theorem causeBitSlip : Statement .causeBitSlip :=
  ⟨rfl, List.cons_ne_nil _ _⟩

theorem causeFramingStart : Statement .causeFramingStart :=
  ⟨rfl, List.cons_ne_nil _ _⟩

theorem causeFramingStop : Statement .causeFramingStop :=
  ⟨rfl, List.cons_ne_nil _ _⟩

theorem causePhaseViolation : Statement .causePhaseViolation :=
  ⟨rfl, List.cons_ne_nil _ _⟩

theorem causeTsOrder : Statement .causeTsOrder :=
  ⟨rfl, List.cons_ne_nil _ _⟩

theorem causeWriteAfterClose (p : Nat) : Statement (.causeWriteAfterClose p) :=
  ⟨rfl, List.cons_ne_nil _ _⟩

theorem causeCloseReleaseFailure : Statement .causeCloseReleaseFailure :=
  ⟨rfl, List.cons_ne_nil _ _⟩

end Sys2Proof.Laws.EncodeAtFormat
end

