-- ==== Sys2Proof/Laws/Words.lean ====
section
/-! SUPPORT. For each reader of the decoder, once, what it reads and all it can have read: naturals, bits, units, edges, the
frames of a burst (log entry 4). -/

namespace Sys2Proof

/-! ### Naturals -/

/-- More fuel than the natural needs changes nothing. -/
theorem natBytesFuel_eq (f n : Nat) (h : n ≤ f) : ∀ g, n ≤ g → natBytesFuel f n = natBytesFuel g n := by
  induction f generalizing n with
  | zero =>
    intro g _
    have : n = 0 := by omega
    subst this
    cases g <;> simp [natBytesFuel]
  | succ f ih =>
    intro g hg
    by_cases hn : n < 128
    · cases g <;> simp [natBytesFuel, hn]
    · cases g with
      | zero => omega
      | succ g =>
        simp only [natBytesFuel, hn, if_false]
        rw [ih (n / 128) (by omega) g (by omega)]

theorem natBytes_small (n : Nat) (h : n < 128) : natBytes n = [BitVec.ofNat 8 n] := by
  unfold natBytes
  cases n <;> simp [natBytesFuel]
  omega

theorem natBytes_big (n : Nat) (h : 128 ≤ n) :
    natBytes n = BitVec.ofNat 8 (128 + n % 128) :: natBytes (n / 128) := by
  unfold natBytes
  obtain ⟨m, rfl⟩ : ∃ m, n = m + 1 := ⟨n - 1, by omega⟩
  have : ¬ m + 1 < 128 := by omega
  simp only [natBytesFuel, this, if_false]
  rw [natBytesFuel_eq m ((m + 1) / 128) (by omega) _ (le_refl _)]

theorem natBytes_ne_nil (n : Nat) : natBytes n ≠ [] := by
  by_cases h : n < 128
  · simp [natBytes_small n h]
  · simp [natBytes_big n (by omega)]

/-- The bytes of a natural are read back, whatever follows them. -/
theorem readNat_natBytes (n : Nat) (rest : List Byte) : readNat (natBytes n ++ rest) = .ok (n, rest) := by
  induction n using Nat.strong_induction_on with
  | _ n ih =>
    by_cases h : n < 128
    · rw [natBytes_small n h]
      have : (BitVec.ofNat 8 n).toNat = n := by simp; omega
      simp only [List.cons_append, List.nil_append, readNat, this, h, if_true]
    · rw [natBytes_big n (by omega)]
      have h2 : (BitVec.ofNat 8 (128 + n % 128)).toNat = 128 + n % 128 := by simp; omega
      have h3 : ¬ 128 + n % 128 < 128 := by omega
      have h4 : ¬ n / 128 = 0 := by omega
      simp only [List.cons_append, readNat, h2, h3, if_false, ih (n / 128) (by omega), h4]
      congr 2
      omega

/-- What is read as a natural is its bytes. -/
theorem natBytes_of_readNat (bs : List Byte) : ∀ n rest, readNat bs = .ok (n, rest) → bs = natBytes n ++ rest := by
  induction bs with
  | nil => intro n rest h; cases h
  | cons b bs ih =>
    intro n rest h
    simp only [readNat] at h
    split at h
    · rename_i hb
      cases h
      rw [natBytes_small _ hb]
      simp
    · split at h
      · cases h
      · rename_i m r hm
        split at h
        · cases h
        · cases h
          have hb := b.isLt
          have e1 : (b.toNat - 128 + 128 * m) / 128 = m := by omega
          have e2 : 128 + (b.toNat - 128 + 128 * m) % 128 = b.toNat := by omega
          rw [natBytes_big _ (by omega), e1, e2, ih _ _ hm]
          simp

/-! ### What each reader reads -/

theorem withByte_cons (b : Byte) (rest : List Byte) (k : Byte → List Byte → Decoded) :
    withByte (b :: rest) k = k b rest := rfl

theorem withNat_natBytes (n : Nat) (rest : List Byte) (k : Nat → List Byte → Decoded) :
    withNat (natBytes n ++ rest) k = k n rest := by simp [withNat, readNat_natBytes]

theorem withNat_natBytes_end (n : Nat) (k : Nat → List Byte → Decoded) : withNat (natBytes n) k = k n [] := by
  simpa using withNat_natBytes n [] k

theorem withBit_bitByte (b : Bool) (rest : List Byte) (k : Bool → List Byte → Decoded) :
    withBit (bitByte b ++ rest) k = k b rest := by cases b <;> simp [withBit, withByte, bitByte]

theorem withUnit_unitBytes (u : TxUnit) (rest : List Byte) (k : TxUnit → List Byte → Decoded) :
    withUnit (unitBytes u ++ rest) k = k u rest := by
  obtain ⟨f, v⟩ := u
  cases f <;> simp [withUnit, withBit, withByte, unitBytes]

theorem withUnit_unitBytes_end (u : TxUnit) (k : TxUnit → List Byte → Decoded) :
    withUnit (unitBytes u) k = k u [] := by simpa using withUnit_unitBytes u [] k

theorem ofBit_toBit (d : Dir) : Dir.ofBit d.toBit = d := by cases d <;> rfl

theorem withEdge_edgeBytes (d : Dir) (ts : Nat) (rest : List Byte) (k : Dir → Nat → List Byte → Decoded) :
    withEdge (edgeBytes d ts ++ rest) k = k d ts rest := by
  simp only [withEdge, edgeBytes, List.append_assoc, withBit_bitByte, withNat_natBytes, ofBit_toBit]

theorem withEdge_edgeBytes_end (d : Dir) (ts : Nat) (k : Dir → Nat → List Byte → Decoded) :
    withEdge (edgeBytes d ts) k = k d ts [] := by simpa using withEdge_edgeBytes d ts [] k

/-- The frames of a burst are read back (30_encoding.md R101). -/
theorem decodeFrames_frames (bs : List Byte) : decodeFrames ((bs.map TxUnit.frame).flatMap unitBytes) = .ok bs := by
  induction bs with
  | nil => rfl
  | cons b bs ih =>
    simp only [List.map_cons, List.flatMap_cons]
    show decodeFrames (b :: 1 :: (List.flatMap unitBytes (List.map TxUnit.frame bs))) = _
    simp only [decodeFrames, if_true, ih]

/-! ### All that each reader can have read -/

theorem finish_ok {i j : Instr} {bs : List Byte} (h : finish i bs = .ok j) : bs = [] ∧ j = i := by
  cases bs <;> simp [finish] at h
  exact ⟨rfl, h.symm⟩

theorem withByte_ok {bs : List Byte} {k : Byte → List Byte → Decoded} {j : Instr} (h : withByte bs k = .ok j) :
    ∃ b rest, bs = b :: rest ∧ k b rest = .ok j := by
  cases bs <;> simp [withByte] at h
  exact ⟨_, _, rfl, h⟩

theorem withNat_ok {bs : List Byte} {k : Nat → List Byte → Decoded} {j : Instr} (h : withNat bs k = .ok j) :
    ∃ n rest, bs = natBytes n ++ rest ∧ k n rest = .ok j := by
  unfold withNat at h
  split at h
  · cases h
  · rename_i n rest hn
    exact ⟨n, rest, natBytes_of_readNat _ _ _ hn, h⟩

theorem withBit_ok {bs : List Byte} {k : Bool → List Byte → Decoded} {j : Instr} (h : withBit bs k = .ok j) :
    ∃ b rest, bs = bitByte b ++ rest ∧ k b rest = .ok j := by
  replace h := withByte_ok h
  obtain ⟨b, rest, rfl, h⟩ := h
  split at h
  · rename_i hb
    exact ⟨false, rest, by simp [bitByte]; exact BitVec.eq_of_toNat_eq hb, h⟩
  · rename_i hb
    exact ⟨true, rest, by simp [bitByte]; exact BitVec.eq_of_toNat_eq hb, h⟩
  · cases h

theorem withUnit_ok {bs : List Byte} {k : TxUnit → List Byte → Decoded} {j : Instr} (h : withUnit bs k = .ok j) :
    ∃ u rest, bs = unitBytes u ++ rest ∧ k u rest = .ok j := by
  replace h := withByte_ok h
  obtain ⟨b, rest, rfl, h⟩ := h
  replace h := withBit_ok h
  obtain ⟨f, rest, rfl, h⟩ := h
  exact ⟨⟨f, b⟩, rest, by simp [unitBytes, bitByte], h⟩

theorem withEdge_ok {bs : List Byte} {k : Dir → Nat → List Byte → Decoded} {j : Instr} (h : withEdge bs k = .ok j) :
    ∃ d ts rest, bs = edgeBytes d ts ++ rest ∧ k d ts rest = .ok j := by
  replace h := withBit_ok h
  obtain ⟨b, rest, rfl, h⟩ := h
  replace h := withNat_ok h
  obtain ⟨n, rest, rfl, h⟩ := h
  exact ⟨Dir.ofBit b, n, rest, by cases b <;> simp [edgeBytes, Dir.ofBit, Dir.toBit], h⟩

/-- What is read as frames is framed units (30_encoding.md R101). -/
theorem decodeFrames_ok (bs : List Byte) :
    ∀ vs, decodeFrames bs = .ok vs → bs = (vs.map TxUnit.frame).flatMap unitBytes := by
  induction bs using decodeFrames.induct <;> intro vs h
  · simp [decodeFrames] at h
    subst h
    rfl
  · simp [decodeFrames] at h
  all_goals simp_all [decodeFrames]
  subst h
  simp [unitBytes, TxUnit.frame]

theorem byte_of_toNat {b : Byte} {n : Nat} (h : b.toNat = n) : b = BitVec.ofNat 8 n := by
  subst h
  simp

end Sys2Proof
end

