-- ==== Sys2Proof/Tests/Slice0.lean ====
section
/-! SUPPORT. Tests. Expected values come from spec/95_test_vectors.md (the vector is named in the theorem's name or its comment)
or are written out from the rules; a theorem `witness_X` shows a state and operands that meet the hypotheses of the statement X. -/

namespace Sys2Proof.Tests

open Sys2Proof Sys2Proof.Machine

/-! ### Helpers -/

/-- The next state, if there is one. -/
def next? : Out → Option State
  | .next t => some t
  | .fault _ => none
  | .refused _ => none

/-- Whether an operation stops with a fault. -/
def faults? : Out → Option Fault
  | .next _ => none
  | .fault f => some f
  | .refused _ => none

/-- The configuration of the vectors: `HALF = 500`, `TOL = 100`, `SYNC_RUN = 16`, here with `QDEPTH = 4`, `NPROD = 2`. -/
def cfg500 : Params := { half := 500, tol := 100, qdepth := 4, nprod := 2, syncRun := 16, runMax := none }

/-- The state after reset with that configuration. -/
def base : State := State.resetWith cfg500

/-- The decoder state as section 2.6 writes it, with what was emitted and reported. -/
structure DecoderView where
  sync     : Sync
  haveLast : Bool
  lastTs   : Nat
  phase    : Phase
  run      : Nat
  slot     : Nat
  shreg    : Byte
  rxBytes  : List Byte
  rxErrs   : List Cause
deriving DecidableEq

/-- A state with a given decoder state. -/
def withDecoder (sync : Sync) (haveLast : Bool) (lastTs : Nat) (phase : Phase) (run slot : Nat) (shreg : Byte) : State :=
  { base with sync := sync, haveLast := haveLast, lastTs := lastTs, phase := phase, run := run, slot := slot,
              shreg := shreg }

/-- The decoder after an operation. -/
def decoded (i : Instr) (s : State) : Option DecoderView :=
  (next? (exec i s)).map fun t => ⟨t.sync, t.haveLast, t.lastTs, t.phase, t.run, t.slot, t.shreg, t.rxBytes, t.rxErrs⟩

/-- The value an operation leaves in the model's result. -/
def value (i : Instr) (s : State) : Option FnResult := (next? (exec i s)).map fun t => t.result

/-! ### WellFormed refuses -/

theorem test_wf_unitU_preamble : (Instr.unitU 0xFF).wellFormed = false := by decide
theorem test_wf_qeReserved_preamble : (Instr.qeReserved 0xFF).wellFormed = false := by decide
theorem test_wf_resync_cause : (Instr.resync .writeAfterClose).wellFormed = false := by decide

/-! ### Words written out from the encodings of 30_encoding.md, every row -/

theorem test_decode_sym :
    decode ⟨.sym, [0b01]⟩ = .ok .sym0 ∧ decode ⟨.sym, [0b10]⟩ = .ok .sym1 ∧
    decode ⟨.sym, [0b00]⟩ = .ok .symLL ∧ decode ⟨.sym, [0b11]⟩ = .ok .symHH := by decide

/-- `F(0x41)` is the bits 0,1,0,0,0,0,0,1,0,1 in time order (vector U4), bit 0 first. -/
theorem test_decode_units :
    decode ⟨.unitF, [0b10000010, 0b10]⟩ = .ok (.unitF 0x41) ∧ decode ⟨.unitU, [0x5A]⟩ = .ok (.unitU 0x5A) ∧
    decode ⟨.unitU, [0xFF]⟩ = .ok .preamble ∧
    decode ⟨.burst, [0xFF, 0, 0xFF, 0, 0x41, 1, 0x80, 1]⟩ = .ok (.burst [0x41, 0x80]) := by decide

theorem test_decode_entries :
    decode ⟨.qe9, [0xFF, 0]⟩ = .ok .qePreamble ∧ decode ⟨.qe9, [0x41, 1]⟩ = .ok (.qeFramed 0x41) ∧
    decode ⟨.qe9, [0x00, 0]⟩ = .ok (.qeReserved 0x00) := by decide

theorem test_decode_edges :
    decode ⟨.edge, [1, 0xF4, 0x03]⟩ = .ok (.edgeR 500) ∧ decode ⟨.edge, [0, 0xE8, 0x07]⟩ = .ok (.edgeF 1000) := by decide

theorem test_decode_ports :
    decode ⟨.port, [0]⟩ = .ok .reset ∧ decode ⟨.port, [1]⟩ = .ok .clkstep ∧
    decode ⟨.port, [2, 1]⟩ = .ok (.tick true) ∧ decode ⟨.port, [3, 1]⟩ = .ok (.wopen 1) ∧
    decode ⟨.port, [4, 1]⟩ = .ok (.wgrant 1) ∧ decode ⟨.port, [5]⟩ = .ok .wpre ∧
    decode ⟨.port, [6, 1, 0x41]⟩ = .ok (.wbyte 1 0x41) ∧ decode ⟨.port, [7, 1]⟩ = .ok (.wend 1) ∧
    decode ⟨.port, [8, 1]⟩ = .ok (.wrefuse 1) ∧ decode ⟨.port, [9]⟩ = .ok .close := by decide

theorem test_decode_cases :
    decode ⟨.decode, [0, 1, 5]⟩ = .ok (.edgeFirst .rising 5) ∧
    decode ⟨.decode, [1, 1, 5]⟩ = .ok (.edgeTsOrder .rising 5) ∧
    decode ⟨.decode, [2, 0, 5]⟩ = .ok (.edgeSHalf .falling 5) ∧
    decode ⟨.decode, [3, 1, 5]⟩ = .ok (.edgeSFull .rising 5) ∧
    decode ⟨.decode, [4, 1, 5]⟩ = .ok (.edgeSNeither .rising 5) ∧
    decode ⟨.decode, [5, 0, 5]⟩ = .ok (.edgeYHalf .falling 5) ∧
    decode ⟨.decode, [6, 1, 5]⟩ = .ok (.edgeYFull .rising 5) ∧
    decode ⟨.decode, [7, 1, 5]⟩ = .ok (.edgeYNeither .rising 5) ∧
    decode ⟨.decode, [8, 0]⟩ = .ok (.deliverStart false) ∧ decode ⟨.decode, [9, 1]⟩ = .ok (.deliverData true) ∧
    decode ⟨.decode, [10, 1]⟩ = .ok (.deliverStop true) ∧
    decode ⟨.decode, [11, 5]⟩ = .ok (.resync .phaseViolation) := by decide

theorem test_decode_functions :
    decode ⟨.func, [0, 13, 5, 7]⟩ = .ok (.within 13 5 7) ∧ decode ⟨.func, [1, 9]⟩ = .ok (.classify 9) ∧
    decode ⟨.func, [2, 0x41, 1]⟩ = .ok (.unitBits (TxUnit.frame 0x41)) ∧
    decode ⟨.func, [3, 0xFF, 0]⟩ = .ok (.nhalves TxUnit.preamble) ∧
    decode ⟨.func, [4, 0x41, 1, 19]⟩ = .ok (.halflevel (TxUnit.frame 0x41) 19) ∧
    decode ⟨.func, [4, 0xFF, 0, 16]⟩ = .ok (.halflevel TxUnit.preamble 16) ∧
    decode ⟨.func, [6, 1, 0, 0]⟩ = .ok (.qops (.qpush { framed := false, payload := 0x00 })) ∧
    decode ⟨.func, [5, 1]⟩ = .ok (.bitval .rising) ∧ decode ⟨.func, [6, 0]⟩ = .ok (.qops .qlen) ∧
    decode ⟨.func, [6, 1, 0x41, 1]⟩ = .ok (.qops (.qpush (TxUnit.frame 0x41))) ∧
    decode ⟨.func, [6, 2]⟩ = .ok (.qops .qpop) := by decide

theorem test_decode_codes :
    decode ⟨.code, [0, 0]⟩ = .ok .levelLow ∧ decode ⟨.code, [0, 1]⟩ = .ok .levelHigh ∧
    decode ⟨.code, [1, 0]⟩ = .ok .dirFalling ∧ decode ⟨.code, [1, 1]⟩ = .ok .dirRising ∧
    decode ⟨.code, [2, 0]⟩ = .ok .modeRun ∧ decode ⟨.code, [2, 1]⟩ = .ok .modeClosing ∧
    decode ⟨.code, [2, 2]⟩ = .ok .modeStopped ∧ decode ⟨.code, [2, 3]⟩ = .ok .modeReserved ∧
    decode ⟨.code, [3, 0]⟩ = .ok .syncSearching ∧ decode ⟨.code, [3, 1]⟩ = .ok .syncSynced ∧
    decode ⟨.code, [4, 0]⟩ = .ok .phaseMid ∧ decode ⟨.code, [4, 1]⟩ = .ok .phaseBoundary := by decide

theorem test_decode_causes :
    decode ⟨.cause, [1]⟩ = .ok .causePinDriveFailure ∧ decode ⟨.cause, [2]⟩ = .ok .causeBitSlip ∧
    decode ⟨.cause, [3]⟩ = .ok .causeFramingStart ∧ decode ⟨.cause, [4]⟩ = .ok .causeFramingStop ∧
    decode ⟨.cause, [5]⟩ = .ok .causePhaseViolation ∧ decode ⟨.cause, [6]⟩ = .ok .causeTsOrder ∧
    decode ⟨.cause, [7, 1]⟩ = .ok (.causeWriteAfterClose 1) ∧
    decode ⟨.cause, [8]⟩ = .ok .causeCloseReleaseFailure := by decide

/-- Words that are no operation: reserved bits, a wrong start or stop bit, a long natural, an unused cause. -/
theorem test_decode_rejects :
    decode ⟨.sym, [4]⟩ = .error .reservedBits ∧ decode ⟨.unitF, [0b10000011, 0b10]⟩ = .error .framing ∧
    decode ⟨.unitF, [0b10000010, 0b00]⟩ = .error .framing ∧ decode ⟨.qe9, [0, 2]⟩ = .error .reservedBits ∧
    decode ⟨.burst, [0xFF, 0, 0xFF, 0, 0x41, 0]⟩ = .error .noPreamble ∧ decode ⟨.cause, [9]⟩ = .error .unknownRow ∧
    decode ⟨.cause, [0]⟩ = .error .unknownRow ∧ decode ⟨.port, [3, 0x80, 0]⟩ = .error .nonMinimal ∧
    decode ⟨.func, [6, 3]⟩ = .error .badOperand ∧ decode ⟨.decode, [11, 7]⟩ = .error .badOperand ∧
    decode ⟨.port, [5, 0]⟩ = .error .trailing ∧ decode ⟨.edge, [1]⟩ = .error .truncated := by decide

/-- Bare words of the opcode table. -/
theorem test_tableWord :
    decodeTableWord 2 0b01 = some .sym0 ∧ decodeTableWord 10 0b1010000010 = some (.unitF 0x41) ∧
    decodeTableWord 9 0x0FF = some .qePreamble ∧ decodeTableWord 9 0x141 = some (.qeFramed 0x41) ∧
    decodeTableWord 4 8 = some .causeCloseReleaseFailure := by decide

/-- A bare word is run by the very next step. -/
theorem test_fetchWord :
    (next? (step (State.reset.withFetchWord 2 0b10))).map State.result =
      some (.symbol .high .low (some true) (some .falling)) := by decide

/-! ### Functions: vectors W, CL, U -/

theorem test_within_W1_W2 :
    value (.within 400 500 100) base = some (.truth true) ∧ value (.within 399 500 100) base = some (.truth false) := by
  decide

theorem test_within_W7_W8 :
    value (.within 0 5 7) base = some (.truth true) ∧ value (.within 13 5 7) base = some (.truth false) := by decide

theorem test_classify_CL1 :
    [399, 400, 600, 601, 899, 900, 1100, 1101].map (classify cfg500) =
      [.neither, .halfIv, .halfIv, .neither, .neither, .fullIv, .fullIv, .neither] := by decide

/-- Vector CL6: both windows hold 2; the half-bit reference wins. -/
theorem test_classify_CL6 :
    value (.classify 2) { base with cfg := { cfg500 with half := 1, tol := 1 } } = some (.cls .halfIv) := by decide

/-- Vector U6: `F(0xA5)`. -/
theorem test_unitBits_U6 : value (.unitBits (TxUnit.frame 0xA5)) base =
    some (.bits [false, true, false, true, false, false, true, false, true, true]) := by decide

/-- Vectors U1 and U4. -/
theorem test_nhalves : value (.nhalves TxUnit.preamble) base = some (.num 16) ∧
    value (.nhalves (TxUnit.frame 0x41)) base = some (.num 20) := by decide

/-- The single values under vector U16's table: `halflevel(F(0x41), 14) = H`, `halflevel(F(0x41), 19) = L`. -/
theorem test_halflevel_U4 : value (.halflevel (TxUnit.frame 0x41) 14) base = some (.level .high) ∧
    value (.halflevel (TxUnit.frame 0x41) 19) base = some (.level .low) := by decide

/-- A position outside the unit: the operation runs, its level free (log entry 12). -/
theorem test_halflevel_outside : (next? (exec (.halflevel TxUnit.preamble 16) base)).isSome = true := by decide

theorem test_bitval : value (.bitval .rising) base = some (.bit false) := by decide

theorem test_qops_pop : (next? (exec (.qops .qpop) { base with q := [TxUnit.preamble, TxUnit.frame 0x41] })).map State.q =
    some [TxUnit.frame 0x41] := by decide

/-- A full queue takes nothing (R142). -/
theorem test_qops_full : (next? (exec (.qops (.qpush (TxUnit.frame 1)))
    { base with q := List.replicate 4 TxUnit.preamble })).map (fun t => t.q.length) = some 4 := by decide

/-- A unit no pushing event can create does not enter the queue (R108, log entry 16). -/
theorem test_qops_reserved : next? (exec (.qops (.qpush { framed := false, payload := 0x00 })) base) = some base := by
  decide

/-! ### Formats -/

/-- Vector U4 on the line: `LHHLLHLHLHLHLHHLLHHL`. -/
theorem test_unitF_U4 : unitLevels (TxUnit.frame 0x41) =
    [.low, .high, .high, .low, .low, .high, .low, .high, .low, .high, .low, .high, .low, .high, .high, .low,
     .low, .high, .high, .low] := by decide

/-- Vector U16: `{0, 0x00}` ends in `H`. -/
theorem test_unitU_U16 : (unitLevels { framed := false, payload := 0x00 }).getLast? = some .high := by decide

/-- Vector E5: a burst of one byte is 52 half-bits. -/
theorem test_burst_length : (lineLevels (burstUnits [0x41])).length = 52 := by decide

theorem test_sym0 : value .sym0 base = some (.symbol .low .high (some false) (some .rising)) := by decide
theorem test_symLL : value .symLL base = some (.symbol .low .low none none) := by decide
theorem test_qeFramed : value (.qeFramed 0x41) base = some (.entry 0x141 (TxUnit.frame 0x41)) := by decide

/-! ### Clock and encoder: vectors K, T, Z -/

/-- Vector K1: `div` counts to 499 and starts again. -/
theorem test_clkstep_K1 : (next? (exec .clkstep { base with div := 499 })).map State.div = some 0 ∧
    (next? (exec .clkstep { base with div := 0 })).map State.div = some 1 := by decide

/-- Vector T1, tick 0: `P` is popped and `H` set. -/
theorem test_tick_T1_0 :
    (next? (exec (.tick false) { base with div := 499, q := [TxUnit.preamble, TxUnit.preamble, TxUnit.frame 0x41] })).map
      (fun t => (t.busy, t.pos, t.q.length, t.tx, t.txLog)) = some (true, 1, 2, .high, [.high]) := by decide

/-- Vector T1, tick 15 and vector T5: the last half-bit of `P`, the driver failing. -/
theorem test_tick_T1_15_T5 :
    (next? (exec (.tick true) { base with div := 499, busy := true, cur := TxUnit.preamble, pos := 15, tx := .high })).map
      (fun t => (t.busy, t.pos, t.tx, t.drvErrSticky)) = some (false, 0, .low, true) := by decide

/-- Vector K5: in the cycle of the completing tick the divider still counts. -/
theorem test_cycle_K5 :
    (fun t : State => (t.encMode, t.clkRun, t.closeDone, t.div))
      (clkCycle PortIn.quiet { base with div := 499, encMode := .closing }) = (.stopped, false, true, 0) := by decide

/-- Vector T4: CLOSE in the cycle of a tick that finds `enc_mode = RUN`; the tick idles. -/
theorem test_cycle_T4 :
    (fun t : State => (t.encMode, t.closeDone))
      (clkCycle { PortIn.quiet with closeReq := true } { base with div := 499 }) = (.closing, false) := by decide

/-- Vector Z2: RESET with a frame in flight. -/
theorem test_reset_Z2 :
    next? (exec .reset { base with busy := true, pos := 2, tx := .high, div := 200, wrCount := [1, 0], txLog := [.high] }) =
      some base := by decide

/-! ### Arbiter and close: vectors A -/

/-- Vector A1, cycles 0 to 4, on the ports: `WRITE 0 [0x41]`. -/
def writeSample (req valid : Bool) : PortIn :=
  { PortIn.quiet with wrReq := [req, false], wrValid := [valid, false], wrData := [0x41, 0] }

theorem test_cycle_A1_grant :
    (fun t : State => (t.owner, t.preLeft, t.q)) (clkCycle (writeSample true true) base) = (some 0, 2, []) := by decide

theorem test_cycle_A1_byte :
    (fun t : State => (t.q, t.wrCount)) (clkCycle (writeSample true true)
      { base with owner := some 0, q := [TxUnit.preamble, TxUnit.preamble] }) =
      ([TxUnit.preamble, TxUnit.preamble, TxUnit.frame 0x41], [1, 0]) := by decide

theorem test_cycle_A1_end :
    (fun t : State => (t.owner, t.wrDone, t.wrCount)) (clkCycle (writeSample false false)
      { base with owner := some 0, wrCount := [1, 0] }) = (none, [true, false], [1, 0]) := by decide

/-- Vector A1, cycle 4, on the output ports: the grant and `wr_ready` of the start of the cycle beside the pulse of its end. -/
theorem test_ports_A1_end :
    (stepOutputs { base with owner := some 0, wrCount := [1, 0], stim := [.ports (writeSample false false)],
                             q := [TxUnit.preamble, TxUnit.preamble, TxUnit.frame 0x41] }).map
      (fun o => (o.wrGnt, o.wrReady, o.wrDone, o.wrCount)) =
      some ([true, false], [true, false], [true, false], [1, 0]) := by decide

/-- An edge on the port: `edge_dir = 1` is `RISING`; vector DS5 in a cycle. -/
theorem test_cycle_edge_DS5 :
    (fun t : State => (t.sync, t.slot, t.lastTs)) (clkCycle { PortIn.quiet with edgeValid := true, edgeDir := true, edgeTs := 17000 }
      (withDecoder .searching true 16000 .mid 16 0 0x00)) = (.synced, 1, 17000) := by decide

theorem test_wgrant : (next? (exec (.wgrant 1) { base with wrCount := [0, 5], wrErr := [false, true] })).map
    (fun t => (t.owner, t.preLeft, t.wrCount, t.wrErr)) = some (some 1, 2, [0, 0], [false, false]) := by decide
theorem test_wpre : (next? (exec .wpre { base with owner := some 0, preLeft := 2 })).map
    (fun t => (t.preLeft, t.q)) = some (1, [TxUnit.preamble]) := by decide
theorem test_wbyte : (next? (exec (.wbyte 0 0x41) { base with owner := some 0 })).map
    (fun t => (t.q, t.wrCount)) = some ([TxUnit.frame 0x41], [1, 0]) := by decide
theorem test_wend : (next? (exec (.wend 0) { base with owner := some 0, wrCount := [3, 0] })).map
    (fun t => (t.owner, t.wrCount, t.wrDone)) = some (none, [3, 0], [true, false]) := by decide

/-- Vector A4. -/
theorem test_wrefuse_A4 : (next? (exec (.wrefuse 1) { base with encMode := .stopped, wrCount := [0, 7] })).map
    (fun t => (t.wrCount, t.wrErr, t.wrDone, t.q)) = some ([0, 0], [false, true], [false, true], []) := by decide

/-- Vector A5. -/
theorem test_close_A5 : (next? (exec .close { base with owner := some 0, wrCount := [3, 0] })).map
    (fun t => (t.encMode, t.owner, t.wrCount, t.wrErr, t.wrDone)) =
      some (.closing, none, [3, 0], [true, false], [true, false]) := by decide

/-- Vector A8: CLOSE and a request in one cycle. -/
theorem test_cycle_A8 :
    (fun t : State => (t.encMode, t.owner, t.wrCount, t.wrErr))
      (clkCycle { writeSample true true with closeReq := true } base) = (.closing, none, [0, 0], [true, false]) := by decide

/-- A producer without a port (log entry 17). -/
theorem test_wopen_no_port : faults? (exec (.wopen 2) base) = some (.noSuchProducer 2) := by decide

/-! ### Decoder: vectors DS -/

theorem test_edgeFirst_DS1 : decoded (.edgeFirst .rising 500) base =
    some ⟨.searching, true, 500, .mid, 0, 0, 0x00, [], []⟩ := by decide
theorem test_edgeSHalf_DS2 : decoded (.edgeSHalf .falling 1000) (withDecoder .searching true 500 .mid 0 0 0x00) =
    some ⟨.searching, true, 1000, .mid, 1, 0, 0x00, [], []⟩ := by decide
theorem test_edgeSFull_DS3 : decoded (.edgeSFull .rising 17000) (withDecoder .searching true 16000 .mid 31 0 0x00) =
    some ⟨.synced, true, 17000, .mid, 0, 1, 0x00, [], []⟩ := by decide
theorem test_edgeSFull_DS4 : decoded (.edgeSFull .rising 17000) (withDecoder .searching true 16000 .mid 15 0 0x00) =
    some ⟨.searching, true, 17000, .mid, 0, 0, 0x00, [], []⟩ := by decide
theorem test_edgeR_DS5 : decoded (.edgeR 17000) (withDecoder .searching true 16000 .mid 16 0 0x00) =
    some ⟨.synced, true, 17000, .mid, 0, 1, 0x00, [], []⟩ := by decide
theorem test_edgeF_DS6 : decoded (.edgeF 17000) (withDecoder .searching true 16000 .mid 31 0 0x00) =
    some ⟨.searching, true, 17000, .mid, 0, 0, 0x00, [], []⟩ := by decide
theorem test_edgeSNeither_DS7 : decoded (.edgeSNeither .rising 17500) (withDecoder .searching true 16000 .mid 31 0 0x00) =
    some ⟨.searching, true, 17500, .mid, 0, 0, 0x00, [], [.bitSlip]⟩ := by decide
theorem test_edgeTsOrder_DS8 : decoded (.edgeTsOrder .rising 15000) (withDecoder .searching true 16000 .mid 31 0 0x00) =
    some ⟨.searching, true, 15000, .mid, 0, 0, 0x00, [], [.tsOrder]⟩ := by decide
theorem test_edgeYFull_DS9 : decoded (.edgeYFull .falling 18000) (withDecoder .synced true 17000 .mid 0 1 0x00) =
    some ⟨.synced, true, 18000, .mid, 0, 2, 0x01, [], []⟩ := by decide
theorem test_edgeYHalf_DS10 : decoded (.edgeYHalf .falling 19500) (withDecoder .synced true 19000 .mid 0 3 0x01) =
    some ⟨.synced, true, 19500, .boundary, 1, 3, 0x01, [], []⟩ := by decide
theorem test_edgeYHalf_DS11 : decoded (.edgeYHalf .rising 20000) (withDecoder .synced true 19500 .boundary 1 3 0x01) =
    some ⟨.synced, true, 20000, .mid, 2, 4, 0x01, [], []⟩ := by decide
theorem test_edgeYFull_DS12 : decoded (.edgeYFull .rising 20500) (withDecoder .synced true 19500 .boundary 1 3 0x01) =
    some ⟨.searching, true, 20500, .mid, 0, 0, 0x00, [], [.phaseViolation]⟩ := by decide
theorem test_edgeF_DS13 : decoded (.edgeF 26000) (withDecoder .synced true 25000 .mid 0 9 0x41) =
    some ⟨.synced, true, 26000, .mid, 0, 0, 0x41, [0x41], []⟩ := by decide
theorem test_edgeR_DS14 : decoded (.edgeR 26000) (withDecoder .synced true 25000 .mid 0 9 0x41) =
    some ⟨.searching, true, 26000, .mid, 0, 0, 0x00, [], [.framingStop]⟩ := by decide
theorem test_edgeYNeither_DS17 : decoded (.edgeYNeither .rising 19700) (withDecoder .synced true 19000 .mid 0 3 0x01) =
    some ⟨.searching, true, 19700, .mid, 0, 0, 0x00, [], [.bitSlip]⟩ := by decide
theorem test_edgeYNeither_DS18 : decoded (.edgeYNeither .rising 19000) (withDecoder .synced true 19000 .mid 0 3 0x01) =
    some ⟨.searching, true, 19000, .mid, 0, 0, 0x00, [], [.bitSlip]⟩ := by decide
theorem test_edgeTsOrder_DS19 : decoded (.edgeTsOrder .rising 18000) (withDecoder .synced true 19000 .mid 0 3 0x01) =
    some ⟨.searching, true, 18000, .mid, 0, 0, 0x00, [], [.tsOrder]⟩ := by decide

/-- The deliveries of vectors DS15, DS16, DS22, DS13 and DS14. -/
theorem test_deliverStart_DS15 : decoded (.deliverStart true) (withDecoder .synced true 27000 .mid 2 0 0x41) =
    some ⟨.searching, true, 27000, .mid, 2, 0, 0x00, [], [.framingStart]⟩ := by decide
theorem test_deliverStart_DS16 : decoded (.deliverStart false) (withDecoder .synced true 27000 .mid 2 0 0x41) =
    some ⟨.synced, true, 27000, .mid, 2, 1, 0x00, [], []⟩ := by decide
theorem test_deliverData_DS22 : decoded (.deliverData true) (withDecoder .synced true 20100 .mid 0 8 0x41) =
    some ⟨.synced, true, 20100, .mid, 0, 9, 0xC1, [], []⟩ := by decide
theorem test_deliverStop_DS13 : decoded (.deliverStop true) (withDecoder .synced true 26000 .mid 0 9 0x41) =
    some ⟨.synced, true, 26000, .mid, 0, 0, 0x41, [0x41], []⟩ := by decide
theorem test_resync : decoded (.resync .bitSlip) (withDecoder .synced true 26000 .boundary 7 6 0x01) =
    some ⟨.searching, true, 26000, .mid, 7, 0, 0x00, [], [.bitSlip]⟩ := by decide

/-! ### Codings and causes -/

theorem test_modeReserved : value .modeReserved base = some (.mode none) := by decide
theorem test_dirRising : value .dirRising base = some (.dir .rising) := by decide
theorem test_causePinDriveFailure : (next? (exec .causePinDriveFailure base)).map State.drvErrSticky = some true := by decide
theorem test_causeBitSlip_searching : decoded .causeBitSlip (withDecoder .searching true 9 .mid 7 0 0x00) =
    some ⟨.searching, true, 9, .mid, 0, 0, 0x00, [], [.bitSlip]⟩ := by decide
theorem test_causeFramingStop_synced : decoded .causeFramingStop (withDecoder .synced true 9 .mid 7 9 0x12) =
    some ⟨.searching, true, 9, .mid, 7, 0, 0x00, [], [.framingStop]⟩ := by decide
theorem test_causeWriteAfterClose : (next? (exec (.causeWriteAfterClose 1) { base with encMode := .closing })).map
    (fun t => (t.wrErr, t.wrDone)) = some ([false, true], [false, true]) := by decide
theorem test_causeCloseReleaseFailure : next? (exec .causeCloseReleaseFailure base) = some base := by decide

/-! ### Witnesses: states that meet the hypotheses of each statement, clause by clause, at the ends of the ranges -/

/-- At a tick, in a unit with `pos = k`. -/
def inUnit (k : Nat) : State := { base with div := 499, busy := true, cur := TxUnit.preamble, pos := k }
/-- At a tick, idle. -/
def atTick : State := { base with div := 499 }
/-- Producer 0's burst, `k` preamble units owed. -/
def opened (k : Nat) : State := { base with owner := some 0, preLeft := k }
/-- The queue full. -/
def fullQueue : State := { base with q := List.replicate 4 TxUnit.preamble }
/-- A sample in which producers 0 and 1 request. -/
def bothRequest : PortIn := { PortIn.quiet with wrReq := [true, true] }

theorem base_inv : CoreInv base := by
  constructor <;> simp [base, cfg500, State.resetWith, Params.sane]
  intro p
  match p with
  | 0 | 1 | _ + 2 => rfl

theorem atTick_inv : CoreInv atTick := { base_inv with div_bound := by decide }

theorem witness_DecodeOfEncode :
    (Instr.halflevel TxUnit.preamble 16).wellFormed = true ∧ (Instr.unitU 0xFE).wellFormed = true ∧
    (Instr.resync .bitSlip).wellFormed = true ∧ (Instr.resync .tsOrder).wellFormed = true := by decide

theorem witness_EncodeOfDecode : decode ⟨.port, [3, 0xFF, 0x01]⟩ = .ok (.wopen 255) := by decide

theorem witness_StepRunsDecodedWord : base.cfg.sane = true ∧
    (loadWord ⟨.port, [9]⟩ base).stim = .word ⟨.port, [9]⟩ :: [] ∧ decode ⟨.port, [9]⟩ = .ok .close := by decide

theorem witness_StepRunsCycleOrStops : base.cfg.sane = true ∧ base.stim = [] ∧
    { base with stim := [.ports PortIn.quiet] }.stim = .ports PortIn.quiet :: [] ∧
    (loadWord ⟨.sym, [4]⟩ base).stim = .word ⟨.sym, [4]⟩ :: [] ∧ decode ⟨.sym, [4]⟩ = .error .reservedBits ∧
    { base with cfg := { cfg500 with half := 0 } }.cfg.half = 0 ∧
    { base with cfg := { cfg500 with qdepth := 0 } }.cfg.qdepth = 0 ∧
    { base with cfg := { cfg500 with nprod := 0 } }.cfg.nprod = 0 := by decide

theorem witness_ResetSetsEveryElement : { bothRequest with rst := true }.rst = true := rfl

theorem witness_ResetMeetsInvariant : { cfg500 with half := 1, qdepth := 1, nprod := 1 }.sane = true := by decide

theorem witness_StepKeepsInvariant : CoreInv base ∧ ∃ t, step base = .next t := ⟨base_inv, _, rfl⟩

theorem witness_ClkstepCountsDivider :
    (base.clkRun = true ∧ atTick.div = atTick.cfg.half - 1) ∧ ({ base with div := 498 }.div ≠ base.cfg.half - 1) ∧
    { base with clkRun := false }.clkRun = false ∧ PortIn.quiet.rst = false := by decide

theorem witness_TicksAreHalfApart : cfg500.sane = true ∧ (∀ _ : Nat, PortIn.quiet.rst = false) ∧
    (runCycles (fun _ => PortIn.quiet) 0 (State.resetWith cfg500)).clkRun = true := ⟨by decide, fun _ => rfl, rfl⟩

/-- The first and the last half-bit of a unit in flight. -/
theorem witness_TickSetsNextHalf : ∀ s ∈ [inUnit 1, inUnit 15],
    s.clkRun = true ∧ s.div = s.cfg.half - 1 ∧ s.busy = true ∧ s.pos < nhalves s.cur := by decide

theorem witness_TickDequeuesHead : ∃ s : State, s.clkRun = true ∧ s.div = s.cfg.half - 1 ∧ s.busy = false ∧
    s.q = TxUnit.preamble :: [] := ⟨{ atTick with q := [TxUnit.preamble] }, by decide⟩

theorem witness_IdleTickChangesNothing : (atTick.clkRun = true ∧ atTick.div = atTick.cfg.half - 1 ∧ atTick.busy = false ∧
    atTick.q = [] ∧ atTick.encMode = .run) ∧ CoreInv atTick := ⟨by decide, atTick_inv⟩

theorem witness_TickCompletesClose :
    (∃ s : State, s.clkRun = true ∧ s.div = s.cfg.half - 1 ∧ s.busy = false ∧ s.q = [] ∧ s.encMode = .closing) ∧
    { base with clkRun := false }.clkRun = false ∧ base.div ≠ base.cfg.half - 1 :=
  ⟨⟨{ atTick with encMode := .closing }, by decide⟩, by decide⟩

theorem witness_DriverFailureSetsStickyOnly : ∃ t, exec (.tick false) (inUnit 15) = .next t := ⟨_, rfl⟩

theorem witness_CloseCutsOpenBurst : (base.encMode = .run ∧ base.owner = none) ∧
    ((opened 2).encMode = .run ∧ (opened 2).owner = some 0) ∧ { base with encMode := .stopped }.encMode ≠ .run := by decide

theorem queued_inv : CoreInv (pushUnit TxUnit.preamble base) := pushUnit_inv _ _ base_inv rfl (by decide) rfl

theorem closing_inv : CoreInv (closeEvent (pushUnit TxUnit.preamble base)) := closeEvent_inv _ queued_inv rfl

/-- One unit still to be sent; and nothing to send. -/
theorem witness_CloseDrainsAndCompletes :
    (∃ s, CoreInv s ∧ s.encMode = .closing ∧ (pendingLevels s).length = 16) ∧
    (∃ s, CoreInv s ∧ s.encMode = .closing ∧ pendingLevels s = []) ∧ (∀ _ : Nat, PortIn.quiet.rst = false) :=
  ⟨⟨_, closing_inv, rfl, rfl⟩, ⟨_, closeEvent_inv _ base_inv rfl, rfl, rfl⟩, fun _ => rfl⟩

theorem witness_GrantOpensBurst : 1 < base.cfg.nprod ∧ base.encMode = .run ∧ base.owner = none := by decide

/-- Three units queued of four; two preamble units owed, one, none. -/
theorem witness_PushesOfABurst : ∀ k ∈ [2, 1, 0],
    let s := { opened k with q := List.replicate 3 TxUnit.preamble }
    0 < s.cfg.nprod ∧ s.encMode = .run ∧ s.owner = some 0 ∧ s.q.length < s.cfg.qdepth ∧ s.preLeft = k := by decide

theorem witness_CallEndsOrIsRefused : 0 < base.cfg.nprod ∧
    ((opened 0).encMode = .run ∧ (opened 0).owner = some 0 ∧ (opened 0).preLeft = 0) ∧
    ({ base with encMode := .closing }.encMode ≠ .run ∧ base.owner ≠ some 0) := by decide

theorem witness_ArbiterEventsHeldOff : { base with encMode := .closing }.encMode ≠ .run ∧ base.owner = none ∧
    base.preLeft = 0 ∧ fullQueue.cfg.qdepth ≤ fullQueue.q.length ∧ 0 < base.cfg.nprod ∧ (opened 1).owner ≠ none ∧
    (opened 1).owner ≠ some 1 ∧ 0 < (opened 1).preLeft ∧ base.encMode = .run ∧ (opened 1).owner = some 0 ∧
    base.cfg.nprod ≤ 2 := by decide

/-- Two bytes fill the queue exactly. -/
theorem witness_CallEnqueuesBurst : CoreInv base ∧ 0 < base.cfg.nprod ∧ base.encMode = .run ∧ base.owner = none ∧
    base.q.length + 2 + [0x41, 0x42].length ≤ base.cfg.qdepth := ⟨base_inv, by decide⟩

theorem witness_SomeRequesterIsGranted : bothRequest.rst = false ∧ base.encMode = .run ∧ base.owner = none ∧ bothRequest.closeReq = false ∧
    ∀ p ∈ [0, 1], p < base.cfg.nprod ∧ bothRequest.wrReq.getD p false = true := by decide

theorem openedTick_inv : CoreInv (grantEvent 0 atTick) := grantEvent_inv _ _ atTick_inv (by decide) rfl

theorem waitingTick_inv : CoreInv { grantEvent 0 atTick with preLeft := 0 } :=
  { openedTick_inv with pre_bound := by decide, pre_owner := fun _ => rfl }

/-- The owner's request down, a request of the other producer after a close; the bound of both: producer 1 of 2. -/
theorem witness_CallEndsOrIsRefused_cycle :
    let s := { grantEvent 0 atTick with preLeft := 0 }
    CoreInv s ∧ PortIn.quiet.rst = false ∧ 0 < s.cfg.nprod ∧ s.encMode = .run ∧ s.owner = some 0 ∧ s.preLeft = 0 ∧
    PortIn.quiet.wrReq.getD 0 false = false ∧ PortIn.quiet.closeReq = false ∧ CoreInv (closeEvent base) ∧
    bothRequest.rst = false ∧ 1 < (closeEvent base).cfg.nprod ∧ (closeEvent base).encMode ≠ .run ∧
    bothRequest.wrReq.getD 1 false = true := ⟨waitingTick_inv, by decide, by decide, rfl, rfl, rfl, rfl, rfl,
      closeEvent_inv _ base_inv rfl, by decide⟩

/-- One cycle with a tick, a grant and a rising edge; one with a close, a byte held off and no edge. -/
theorem witness_CycleIsScheduleOfEvents :
    let inp := { bothRequest with edgeValid := true, edgeDir := true }
    CoreInv atTick ∧ inp.rst = false ∧ inp.edgeValid = true ∧ inp.edgeDir = true ∧
    Instr.tick false ∈ sampledEvents inp atTick ∧ Instr.wgrant 0 ∈ sampledEvents inp atTick ∧
    CoreInv (grantEvent 0 atTick) ∧ PortIn.quiet.rst = false ∧ PortIn.quiet.edgeValid = false ∧
    Instr.wpre ∈ sampledEvents PortIn.quiet (grantEvent 0 atTick) := ⟨atTick_inv, by decide, by decide, by decide, by decide,
      by decide, openedTick_inv, by decide⟩

theorem witness_PushNotSeenBySameCycleTick :
    let inp := { writeSample true true with edgeValid := true }
    CoreInv (grantEvent 0 atTick) ∧ CoreInv { grantEvent 0 atTick with preLeft := 0 } ∧ inp.rst = false ∧
    inp.closeReq = false ∧ (grantEvent 0 atTick).encMode = .run ∧ (grantEvent 0 atTick).q = [] ∧
    (grantEvent 0 atTick).busy = false ∧ (grantEvent 0 atTick).div = (grantEvent 0 atTick).cfg.half - 1 ∧
    (grantEvent 0 atTick).owner = some 0 ∧ 0 < (grantEvent 0 atTick).preLeft ∧
    inp.wrReq.getD 0 false = true ∧ inp.wrValid.getD 0 false = true := ⟨openedTick_inv, waitingTick_inv, by decide⟩

theorem witness_CloseWinsOverArbiter : CoreInv (grantEvent 0 atTick) ∧ { bothRequest with closeReq := true }.rst = false ∧
    { bothRequest with closeReq := true }.closeReq = true ∧ (grantEvent 0 atTick).encMode = .run ∧
    1 < (grantEvent 0 atTick).cfg.nprod ∧ bothRequest.wrReq.getD 1 false = true ∧
    (grantEvent 0 atTick).owner ≠ some 1 := ⟨openedTick_inv, by decide⟩

theorem witness_FirstEdgeRecordsTime : base.haveLast = false := rfl

theorem witness_EveryEdgeSetsLast : (500 : Nat) ≤ 500 := by decide

/-- Both ends of the window of a half-bit, with `RUN_MAX` and without. -/
theorem witness_SearchingHalfCountsRun : ∀ ts ∈ [900, 1100], ∀ m ∈ [none, some 16],
    let s := { withDecoder .searching true 500 .mid 0 0 0x00 with cfg := { cfg500 with runMax := m } }
    s.haveLast = true ∧ s.sync = .searching ∧ s.lastTs ≤ ts ∧ classify s.cfg (ts - s.lastTs) = .halfIv := by decide

/-- Both ends of the window of a full bit; `run = SYNC_RUN` and one less. -/
theorem witness_SearchingFullLocks : ∀ ts ∈ [1400, 1600],
    let s := withDecoder .searching true 500 .mid 16 0 0x00
    let s' := withDecoder .searching true 500 .mid 15 0 0x00
    s.haveLast = true ∧ s.sync = .searching ∧ s.lastTs ≤ ts ∧ classify s.cfg (ts - s.lastTs) = .fullIv ∧
      s.cfg.syncRun ≤ s.run ∧ s'.run < s'.cfg.syncRun := by decide

/-- An interval of 0 is BIT_SLIP, one cycle backwards is TS_ORDER. -/
theorem witness_SearchingNeitherReports :
    let s := withDecoder .searching true 500 .mid 3 0 0x00
    s.haveLast = true ∧ s.sync = .searching ∧ (s.lastTs ≤ 500 ∧ classify s.cfg (500 - s.lastTs) = .neither) ∧
      499 < s.lastTs := by decide

theorem witness_SyncedHalfTracksPhase : ∀ ph ∈ [Phase.mid, .boundary], ∀ slot ∈ [0, 9],
    let s := withDecoder .synced true 500 ph 0 slot 0x00
    s.haveLast = true ∧ s.sync = .synced ∧ s.lastTs ≤ 1000 ∧ classify s.cfg (1000 - s.lastTs) = .halfIv ∧
      s.slot ≤ 9 ∧ s.phase = ph := by decide

theorem witness_SyncedFullDeliversBit : ∀ ph ∈ [Phase.mid, .boundary], ∀ slot ∈ [0, 9],
    let s := withDecoder .synced true 500 ph 0 slot 0x00
    s.haveLast = true ∧ s.sync = .synced ∧ s.lastTs ≤ 1500 ∧ classify s.cfg (1500 - s.lastTs) = .fullIv ∧
      s.slot ≤ 9 ∧ s.phase = ph ∧ s.slot = slot := by decide

theorem witness_SyncedNeitherResyncs :
    let s := withDecoder .synced true 500 .boundary 3 4 0x01
    s.haveLast = true ∧ s.sync = .synced ∧ (s.lastTs ≤ 500 ∧ classify s.cfg (500 - s.lastTs) = .neither) ∧
      499 < s.lastTs ∧ s.cfg.Legal ∧ 500 = s.lastTs := by decide

theorem witness_UnselectedCaseChangesNothing :
    let s := withDecoder .searching true 500 .mid 0 0 0x00
    let y := withDecoder .synced true 500 .mid 0 9 0x00
    s.haveLast = true ∧ base.haveLast = false ∧ s.lastTs ≤ 500 ∧ y.sync = .synced ∧ s.sync = .searching ∧
      classify s.cfg (1500 - s.lastTs) ≠ .halfIv ∧ classify s.cfg (1000 - s.lastTs) ≠ .fullIv ∧
      classify s.cfg (1000 - s.lastTs) ≠ .neither ∧ 499 < s.lastTs ∧ y.slot ≠ 0 ∧ 8 < y.slot ∧ s.slot = 0 ∧ s.slot ≠ 9 := by decide

theorem witness_BitsOfAFrameDelivered : ∀ slot ∈ [0, 1, 8, 9],
    (withDecoder .synced true 500 .mid 0 slot 0x00).sync = .synced ∧
      (slot = 0 ∨ (1 ≤ slot ∧ slot ≤ 8) ∨ slot = 9) := by decide

theorem witness_EdgeEmitsOrReportsOnce :
    ∃ t, exec (edgeInstr .falling 1500) (withDecoder .synced true 500 .mid 0 9 0x41) = .next t := ⟨_, rfl⟩

/-- Half-bit `k` at `500 * k`, the odd ones 100 late: every half-bit interval stands at an end of its window. -/
def lateOdd (k : Nat) : Nat := 500 * k + if k % 2 = 1 then 100 else 0

theorem witness_FirstBurstRoundTrip : base.cfg.Legal ∧ base.haveLast = false ∧ base.sync = .searching ∧
    WithinTolerance base.cfg lateOdd (lineEdges .low 1 (lineLevels (burstUnits [0x41]))) := by
  refine ⟨by decide, rfl, rfl, ?_⟩
  repeat' first | exact trivial | refine ⟨by decide, by decide, ?_⟩

theorem witness_UniformShiftChangesNothing :
    ∃ t, execAll ([(Dir.rising, 500), (.falling, 1000), (.rising, 400)].map fun e => edgeInstr e.1 e.2) base = .next t :=
  ⟨_, rfl⟩

/-- Two states that differ in the transmit side alone. -/
theorem witness_DecoderIgnoresTransmitSide : bothRequest.rst = false ∧ PortIn.quiet.rst = false ∧
    bothRequest.edgeValid = PortIn.quiet.edgeValid ∧ bothRequest.edgeDir = PortIn.quiet.edgeDir ∧
    bothRequest.edgeTs = PortIn.quiet.edgeTs ∧ (inUnit 1).cfg = base.cfg ∧
    ((inUnit 1).sync, (inUnit 1).haveLast, (inUnit 1).lastTs, (inUnit 1).phase, (inUnit 1).run, (inUnit 1).slot,
      (inUnit 1).shreg, (inUnit 1).rxBytes, (inUnit 1).rxErrs) =
    (base.sync, base.haveLast, base.lastTs, base.phase, base.run, base.slot, base.shreg, base.rxBytes, base.rxErrs) :=
  ⟨rfl, rfl, rfl, rfl, rfl, rfl, rfl⟩

theorem witness_TransmitSideIgnoresDecoder :
    let inp' := { bothRequest with edgeValid := true, edgeTs := 5 }
    let s' := withDecoder .synced true 500 .boundary 3 4 0x01
    bothRequest.rst = false ∧
    inp' = { bothRequest with edgeValid := inp'.edgeValid, edgeDir := inp'.edgeDir, edgeTs := inp'.edgeTs } ∧
    s' = { base with sync := s'.sync, haveLast := s'.haveLast, lastTs := s'.lastTs, phase := s'.phase, run := s'.run,
                     slot := s'.slot, shreg := s'.shreg, rxBytes := s'.rxBytes, rxErrs := s'.rxErrs,
                     rxEmit := s'.rxEmit, rxErr := s'.rxErr } := ⟨rfl, rfl, rfl⟩

theorem witness_ModeOnlyMovesForward : Instr.close ≠ .reset ∧ ∃ t, exec .close base = .next t := ⟨by decide, _, rfl⟩

theorem witness_OnlyResetUndoes : Instr.close ≠ .reset ∧
    let s := { base with closeDone := true, drvErrSticky := true, haveLast := true, clkRun := false }
    (∃ t, exec .close s = .next t) ∧ s.closeDone = true ∧ s.drvErrSticky = true ∧ s.haveLast = true ∧
      s.clkRun = false := ⟨by decide, ⟨_, rfl⟩, rfl, rfl, rfl, rfl⟩

theorem witness_OnlyTickDrivesPin : Instr.tick false ≠ .reset ∧ ∃ t, exec (.tick false) (inUnit 1) = .next t :=
  ⟨by decide, _, rfl⟩

theorem witness_QueueIsFifoAndClosed : Instr.wpre ≠ .reset ∧ ∃ t, exec .wpre (opened 2) = .next t := ⟨by decide, _, rfl⟩

theorem witness_BurstKeepsItsOwner : CoreInv (grantEvent 0 atTick) ∧ (grantEvent 0 atTick).owner = some 0 ∧
    ∃ t, exec (.wbyte 1 0x41) (grantEvent 0 atTick) = .next t := ⟨openedTick_inv, rfl, _, rfl⟩

theorem witness_ErrorBitClearedByGrantOnly : Instr.wgrant 1 ≠ .reset ∧ (1 : Nat) ≠ 0 ∧
    { base with wrErr := [true, false] }.wrErr.getD 0 false = true ∧
    (∃ t, exec (.wgrant 1) { base with wrErr := [true, false] } = .next t) ∧
    (∀ b, Instr.wgrant 1 ∉ [.wgrant 0, .wbyte 0 b, .wrefuse 0, .causeWriteAfterClose 0]) ∧
    Instr.close ≠ .reset ∧ { base with owner := some 1 }.owner ≠ some 0 ∧
    (∃ t, exec .close { base with owner := some 1 } = .next t) ∧
    ∀ b, Instr.close ∉ [.wgrant 0, .wbyte 0 b, .wrefuse 0, .causeWriteAfterClose 0] :=
  ⟨by decide, by decide, by decide, ⟨_, rfl⟩, by simp, by decide, by decide, ⟨_, rfl⟩, by simp⟩

theorem witness_WithinIsDistance : (7 : Nat) ≤ 7 ∧ (0 : Nat) ≤ 7 + 7 := by decide

theorem witness_ClassifyTriesHalfFirst : 2 * { cfg500 with tol := 249 }.tol < cfg500.half := by decide

theorem witness_LineFunctionValues : (15 : Nat) < 2 * (unitBits TxUnit.preamble).length ∧
    (19 : Nat) < 2 * (unitBits (TxUnit.frame 0)).length := by decide

theorem witness_UnitsEndLow : TxUnit.preamble.creatable = true ∧ (TxUnit.frame 0x00).creatable = true ∧
    CoreInv base ∧ base.busy = false := ⟨by decide, by decide, base_inv, rfl⟩

theorem witness_QueueOperations : base.encMode = .run ∧
    { base with q := List.replicate 3 TxUnit.preamble }.q.length < base.cfg.qdepth ∧
    { base with encMode := .closing }.encMode ≠ .run ∧ fullQueue.cfg.qdepth ≤ fullQueue.q.length ∧
    (TxUnit.frame 0x00).framed = true ∧ TxUnit.preamble.payload = 0xFF ∧
    (let u : TxUnit := { framed := false, payload := 0xFE }; u.framed = false ∧ u.payload ≠ 0xFF) ∧
    { base with q := [TxUnit.preamble] }.q = TxUnit.preamble :: [] ∧ base.q = [] := by decide

theorem witness_DecoderCausesTaken : Cause.isDecoder .bitSlip = true ∧ Cause.isDecoder .tsOrder = true ∧
    (withDecoder .synced true 500 .mid 0 9 0x00).sync = .synced ∧ base.sync = .searching := by decide

theorem witness_WriteAfterCloseTaken : 1 < base.cfg.nprod ∧ { base with encMode := .closing }.encMode ≠ .run ∧
    base.owner ≠ some 1 ∧ base.encMode = .run := by decide

/-- The sample of an edge. -/
def edgeSample (dir : Bool) (ts : Nat) : PortIn := { PortIn.quiet with edgeValid := true, edgeDir := dir, edgeTs := ts }

/-- A cycle of an edge with the decoder in a given state. -/
def edgeCycle (sync : Sync) (phase : Phase) (slot : Nat) (dir : Bool) (ts : Nat) : State :=
  { withDecoder sync true 1000 phase 0 slot 0x41 with stim := [.ports (edgeSample dir ts)] }

/-- A cycle that emits a byte, and one for each of the five causes. -/
theorem witness_OutputPorts : 1 < base.cfg.nprod ∧ (edgeSample false 2000).rst = false ∧
    (next? (step (edgeCycle .synced .mid 9 false 2000))).map State.rxEmit = some (some 0x41) ∧
    (next? (step (edgeCycle .searching .mid 0 false 1000))).map State.rxErr = some (some .bitSlip) ∧
    (next? (step (edgeCycle .synced .mid 0 false 2000))).map State.rxErr = some (some .framingStart) ∧
    (next? (step (edgeCycle .synced .mid 9 true 2000))).map State.rxErr = some (some .framingStop) ∧
    (next? (step (edgeCycle .synced .boundary 3 true 2000))).map State.rxErr = some (some .phaseViolation) ∧
    (next? (step (edgeCycle .synced .mid 3 true 999))).map State.rxErr = some (some .tsOrder) := by decide

end Sys2Proof.Tests
end

section
/-! The levels at the two ends of a unit (30_encoding.md R99). -/

namespace Sys2Proof

/-- The units the arbiter creates are the preamble unit and the framed units (30_encoding.md R94, R108). -/
theorem TxUnit.creatable_iff (u : TxUnit) : u.creatable = true ↔ u = .preamble ∨ ∃ b, u = .frame b := by
  obtain ⟨framed, payload⟩ := u
  cases framed <;> simp [TxUnit.creatable, TxUnit.preamble, TxUnit.frame]

theorem head?_unitLevels (u : TxUnit) : (unitLevels u).head? = some (halflevel u 0) := by
  have hpos : nhalves u ≠ 0 := (Machine.nhalves_pos u).ne'
  simp [unitLevels, List.head?_range, hpos]

theorem getLast?_unitLevels (u : TxUnit) : (unitLevels u).getLast? = some (halflevel u (nhalves u - 1)) := by
  have hpos : nhalves u ≠ 0 := (Machine.nhalves_pos u).ne'
  simp [unitLevels, List.getLast?_range, hpos]

/-- A framed unit opens with the first half of its start bit 0, the preamble unit with that of a data bit 1. -/
theorem halflevel_first (u : TxUnit) (h : u.creatable = true) :
    halflevel u 0 = if u.framed then .low else .high := by
  obtain rfl | ⟨b, rfl⟩ := u.creatable_iff.mp h
  case inl => decide
  case inr => rfl

/-- Settles O54: the ends of a unit are its first and last half-bits, and the idle line is Low by the invariant. -/
theorem unitsEndLow : Obligations.UnitsEndLow := by
  refine ⟨fun u hu => ⟨?last, ?first⟩, fun s hs hbusy => (hs.idle_line hbusy).2⟩
  case last => rw [getLast?_unitLevels, Machine.halflevel_last u hu]
  case first => rw [head?_unitLevels, halflevel_first u hu]

end Sys2Proof
end

section
/-! The divider's step (40_clock.md R121). -/

namespace Sys2Proof.Machine

theorem clockStep_of_last (s : State) (h : s.div = s.cfg.half - 1) : clockStep s = { s with div := 0 } := by
  simp only [clockStep, if_pos h]

theorem clockStep_of_not_last (s : State) (h : s.div ≠ s.cfg.half - 1) :
    clockStep s = { s with div := s.div + 1 } := by
  simp only [clockStep, if_neg h]

theorem exec_clkstep (s : State) : exec .clkstep s = .next (if s.clkRun then clockStep s else s) := rfl

theorem exec_clkstep_running (s : State) (h : s.clkRun = true) : exec .clkstep s = .next (clockStep s) := by
  rw [exec_clkstep, if_pos h]

theorem exec_clkstep_stopped (s : State) (h : s.clkRun = false) : exec .clkstep s = .next s := by
  rw [exec_clkstep, if_neg (Bool.eq_false_iff.mp h)]

/-- Settles O9: the row by the divider's two cases, the cycle by `clkCycle_eq`, where no other event writes the divider. -/
theorem clkstepCountsDivider : Obligations.ClkstepCountsDivider := by
  intro s
  refine ⟨fun hrun hlast => ?wraps, fun hrun hlast => ?counts, exec_clkstep_stopped s, fun inp hrst => ?cycle⟩
  case wraps => rw [exec_clkstep_running s hrun, clockStep_of_last s hlast]
  case counts => rw [exec_clkstep_running s hrun, clockStep_of_not_last s hlast]
  case cycle => rw [clkCycle_eq inp s hrst]

end Sys2Proof.Machine
end

section
/-! The encoder at a tick: what it does when it idles, sends or completes a close (43_encoder.md R171 to R176). -/

namespace Sys2Proof

/-- From half-bit `k` on, a unit sends its half-bit `k` and then the rest (30_encoding.md R98). -/
theorem drop_unitLevels (u : TxUnit) (k : Nat) (hk : k < nhalves u) :
    (unitLevels u).drop k = halflevel u k :: (unitLevels u).drop (k + 1) := by
  rw [List.drop_eq_getElem_cons (by simpa [unitLevels] using hk)]
  simp [unitLevels]

theorem drop_unitLevels_of_le (u : TxUnit) (k : Nat) (hk : nhalves u ≤ k) : (unitLevels u).drop k = [] :=
  List.drop_eq_nil_of_le (by simpa [unitLevels] using hk)

namespace Machine

theorem exec_tick_due (fail : Bool) (s : State) (h : tickDue s = true) :
    exec (.tick fail) s = .next (tickEvent fail s) := congrArg Host.Outcome.next (if_pos h)

theorem encoderStep_idle (fail : Bool) (s : State) (hbusy : s.busy = false) (hq : s.q = [])
    (hmode : s.encMode ≠ .closing) : encoderStep fail s = s := by simp [encoderStep, hbusy, hq, hmode]

theorem encoderStep_drained (fail : Bool) (s : State) (hbusy : s.busy = false) (hq : s.q = [])
    (hmode : s.encMode = .closing) : encoderStep fail s = completeClose s := by simp [encoderStep, hbusy, hq, hmode]

/-- Settles O13: the idle case of the encoder's step, and the idle line of the invariant. -/
theorem idleTickChangesNothing : Obligations.IdleTickChangesNothing := by
  intro fail s hrun hdiv hbusy hq hmode
  refine ⟨⟨s.ticks + 1, ?unchanged⟩, fun hinv => (hinv.idle_line hbusy).2⟩
  case unchanged =>
    have hidle : encoderStep fail s = s := encoderStep_idle fail s hbusy hq (by simp [hmode])
    rw [exec_tick_due fail s ((tickDue_iff s).mpr ⟨hrun, hdiv⟩), tickEvent, hidle]

/-! ### What is still to be sent -/

theorem pendingLevels_of_busy (s : State) (h : s.busy = true) :
    pendingLevels s = (unitLevels s.cur).drop s.pos ++ lineLevels s.q := by simp [pendingLevels, h]

theorem pendingLevels_of_not_busy (s : State) (h : s.busy = false) : pendingLevels s = lineLevels s.q := by
  simp [pendingLevels, h]

/-- After half-bit `k` of the current unit the rest of that unit and the queue are left, also when `k` was its last. -/
theorem pendingLevels_emitHalf (k : Nat) (fail : Bool) (s : State) (hk : k < nhalves s.cur) :
    pendingLevels (emitHalf s.cur k fail s) = (unitLevels s.cur).drop (k + 1) ++ lineLevels s.q := by
  rw [emitHalf_eq _ _ _ _ hk]
  by_cases hlast : k + 1 < nhalves s.cur
  · simp [pendingLevels, hlast]
  · simp [pendingLevels, hlast, drop_unitLevels_of_le _ _ (Nat.le_of_not_lt hlast)]

/-! ### A tick while a close drains -/

/-- A close was accepted and is not complete, and a unit in flight is not at its end (43_encoder.md R185, R186). -/
structure Draining (s : State) : Prop where
  closing : s.encMode = .closing
  clock   : s.clkRun = true
  pending : s.closeDone = false
  in_unit : s.busy = true → s.pos < nhalves s.cur

theorem CoreInv.draining {s : State} (h : CoreInv s) (hmode : s.encMode = .closing) : Draining s where
  closing := hmode
  clock := by simpa [hmode] using h.clock_stopped
  pending := by simpa [hmode] using h.done_stopped
  in_unit := fun hbusy => (h.unit_in_flight hbusy).2.1

theorem Draining.emitHalf {s : State} (h : Draining s) (k : Nat) (fail : Bool) (hk : k < nhalves s.cur) :
    Draining (emitHalf s.cur k fail s) := by
  rw [emitHalf_eq _ _ _ _ hk]
  exact { closing := h.closing, clock := h.clock, pending := h.pending
          in_unit := fun hbusy => by
            have hlt : k + 1 < nhalves s.cur := of_decide_eq_true hbusy
            simpa only [if_pos hlt] using hlt }

/-- From `s` to `t` exactly the level `l` was sent, the first of those still to be sent, and the close goes on draining. -/
structure Sends (l : Level) (s t : State) : Prop where
  cfg      : t.cfg = s.cfg
  draining : Draining t
  next     : pendingLevels s = l :: pendingLevels t
  logged   : t.txLog = s.txLog ++ [l]

theorem emitHalf_sends_in_unit (fail : Bool) (s : State) (h : Draining s) (hbusy : s.busy = true) :
    Sends (halflevel s.cur s.pos) s (emitHalf s.cur s.pos fail s) where
  cfg := by rw [emitHalf_eq _ _ _ _ (h.in_unit hbusy)]
  draining := h.emitHalf s.pos fail (h.in_unit hbusy)
  next := by
    rw [pendingLevels_emitHalf _ _ _ (h.in_unit hbusy), pendingLevels_of_busy s hbusy,
      drop_unitLevels _ _ (h.in_unit hbusy), List.cons_append]
  logged := by rw [emitHalf_eq _ _ _ _ (h.in_unit hbusy)]

theorem emitHalf_sends_head (fail : Bool) (s : State) (h : Draining s) (hbusy : s.busy = false) (u : TxUnit)
    (rest : List TxUnit) (hq : s.q = u :: rest) : Sends (halflevel u 0) s (emitHalf u 0 fail (popUnit u rest s)) where
  cfg := by rw [emitHalf_eq _ _ _ _ (nhalves_pos u)]; rfl
  draining :=
    have hpop : Draining (popUnit u rest s) :=
      { closing := h.closing, clock := h.clock, pending := h.pending
        in_unit := fun hb => absurd (hbusy.symm.trans hb) Bool.false_ne_true }
    hpop.emitHalf 0 fail (nhalves_pos u)
  next :=
    calc pendingLevels s
        = (unitLevels u).drop 0 ++ lineLevels rest := by
          rw [pendingLevels_of_not_busy s hbusy, hq, lineLevels, List.flatMap_cons, List.drop_zero, lineLevels]
      _ = halflevel u 0 :: ((unitLevels u).drop 1 ++ lineLevels rest) := by
          rw [drop_unitLevels u 0 (nhalves_pos u), List.cons_append]
      _ = halflevel u 0 :: pendingLevels (emitHalf u 0 fail (popUnit u rest s)) :=
          congrArg _ (pendingLevels_emitHalf 0 fail (popUnit u rest s) (nhalves_pos u)).symm
  logged := by rw [emitHalf_eq _ _ _ _ (nhalves_pos u)]; rfl

/-- A tick while a close drains sends the next level, or nothing is left and it completes the close. -/
theorem tickEvent_draining (fail : Bool) (s : State) (h : Draining s) :
    (∃ l, Sends l s (tickEvent fail s)) ∨
    (pendingLevels s = [] ∧ tickEvent fail s = { completeClose s with ticks := s.ticks + 1 }) := by
  rcases encoderStep_cases fail s with ⟨hbusy, he⟩ | ⟨hbusy, u, rest, hq, he⟩ | ⟨hbusy, hq, -, he⟩ | ⟨-, -, hmode, -⟩
  case inl =>
    have hs := emitHalf_sends_in_unit fail s h hbusy
    rw [← he] at hs
    exact .inl ⟨_, hs.cfg, { hs.draining with }, hs.next, hs.logged⟩
  case inr.inl =>
    have hs := emitHalf_sends_head fail s h hbusy u rest hq
    rw [← he] at hs
    exact .inl ⟨_, hs.cfg, { hs.draining with }, hs.next, hs.logged⟩
  case inr.inr.inl =>
    refine .inr ⟨by rw [pendingLevels_of_not_busy s hbusy, hq]; rfl, ?_⟩
    rw [tickEvent, he]; rfl
  case inr.inr.inr => exact absurd h.closing hmode

end Machine

end Sys2Proof
end

section
/-! A cycle while a close drains: but for the tick no event of it reaches the encoder or the queue (60_exceptions.md R250). -/

namespace Sys2Proof.Machine

/-- What the drain of a close reads and writes is the same in `s` and `t`. -/
structure EncoderSame (s t : State) : Prop where
  cfg       : t.cfg = s.cfg
  clkRun    : t.clkRun = s.clkRun
  q         : t.q = s.q
  encMode   : t.encMode = s.encMode
  busy      : t.busy = s.busy
  cur       : t.cur = s.cur
  pos       : t.pos = s.pos
  closeDone : t.closeDone = s.closeDone
  txLog     : t.txLog = s.txLog

theorem EncoderSame.refl (s : State) : EncoderSame s s := ⟨rfl, rfl, rfl, rfl, rfl, rfl, rfl, rfl, rfl⟩

theorem EncoderSame.trans {s t u : State} (h : EncoderSame s t) (k : EncoderSame t u) : EncoderSame s u :=
  ⟨k.cfg.trans h.cfg, k.clkRun.trans h.clkRun, k.q.trans h.q, k.encMode.trans h.encMode, k.busy.trans h.busy,
    k.cur.trans h.cur, k.pos.trans h.pos, k.closeDone.trans h.closeDone, k.txLog.trans h.txLog⟩

theorem EncoderSame.pendingLevels_eq {s t : State} (h : EncoderSame s t) : pendingLevels t = pendingLevels s := by
  simp only [pendingLevels, h.busy, h.cur, h.pos, h.q]

theorem EncoderSame.draining {s t : State} (h : EncoderSame s t) (hs : Draining s) : Draining t where
  closing := h.encMode.trans hs.closing
  clock := h.clkRun.trans hs.clock
  pending := h.closeDone.trans hs.pending
  in_unit := by rw [h.busy, h.pos, h.cur]; exact hs.in_unit

theorem Sends.trans_same {l : Level} {s t u : State} (h : Sends l s t) (k : EncoderSame t u) : Sends l s u where
  cfg := k.cfg.trans h.cfg
  draining := k.draining h.draining
  next := by rw [k.pendingLevels_eq]; exact h.next
  logged := k.txLog.trans h.logged

/-- A refusal writes the producer's results alone, the cut of its burst included (60_exceptions.md R245). -/
theorem refuseEvent_encoderSame (p : Nat) (s : State) : EncoderSame s (refuseEvent p s) := by
  by_cases howner : s.owner = some p
  · rw [refuseEvent, raise_writeAfterClose_owner p s howner, cutBurst_eq]
    exact { EncoderSame.refl s with }
  · rw [refuseEvent_eq p s howner]
    exact { EncoderSame.refl s with }

theorem edgeEvent_encoderSame (d : Dir) (ts : Nat) (s : State) : EncoderSame s (edgeEvent d ts s) := by
  rw [edgeEvent_frame]
  exact { EncoderSame.refl s with }

/-- The events of a cycle that no mode of the encoder holds back: the refusals and the edge. -/
def outsideEvents (inp : PortIn) (s : State) : List Instr :=
  (refusedProducers inp s).map .wrefuse ++ (edgeInput inp).toList

theorem applyEvent_outside (inp : PortIn) (s t : State) (i : Instr) (h : i ∈ outsideEvents inp s) :
    EncoderSame t (applyEvent t i) := by
  simp only [outsideEvents, List.mem_append, List.mem_map, Option.mem_toList] at h
  obtain ⟨p, -, rfl⟩ | hedge := h
  · exact refuseEvent_encoderSame p t
  · rw [edgeInput_cases inp i hedge]
    cases Dir.ofBit inp.edgeDir <;> exact edgeEvent_encoderSame _ _ t

theorem foldl_applyEvent_encoderSame (l : List Instr) (h : ∀ t, ∀ i ∈ l, EncoderSame t (applyEvent t i)) (s : State) :
    EncoderSame s (l.foldl applyEvent s) := by
  induction l generalizing s with
  | nil => exact EncoderSame.refl s
  | cons i l ih =>
    exact (h s i List.mem_cons_self).trans (ih (fun t j hj => h t j (List.mem_cons_of_mem i hj)) (applyEvent s i))

theorem closing_of_not_run (inp : PortIn) (s : State) (h : s.encMode ≠ .run) : closing inp s = false := by
  simp [closing, canClose, h]

theorem arbiterEvent_of_not_run (inp : PortIn) (s : State) (h : s.encMode ≠ .run) : arbiterEvent inp s = none := by
  by_contra hsome
  obtain ⟨i, hi⟩ := Option.ne_none_iff_exists'.mp hsome
  obtain ⟨-, ⟨hg, -⟩ | ⟨hp, -⟩ | ⟨p, b, hb, -⟩ | ⟨p, he, -⟩⟩ := arbiterEvent_cases inp s i hi
  · exact h ((canGrant_iff s).mp hg).1
  · exact h ((canPre_iff s).mp hp).1
  · exact h ((canByte_iff p s).mp hb).1
  · exact h ((canEnd_iff p s).mp he).1

/-- Outside `RUN` a cycle holds the tick, if it is due, the refusals and the edge (42_queue_arbiter.md R151, R152). -/
theorem sampledEvents_of_not_run (inp : PortIn) (s : State) (h : s.encMode ≠ .run) :
    sampledEvents inp s = (if tickDue s then [.tick inp.drvErr] else []) ++ outsideEvents inp s := by
  simp [sampledEvents, outsideEvents, closing_of_not_run inp s h, arbiterEvent_of_not_run inp s h]

/-- Outside `RUN` a cycle does to the encoder what its tick does. -/
theorem clkCycle_encoderSame (inp : PortIn) (s : State) (hr : inp.rst = false) (h : s.encMode ≠ .run) :
    EncoderSame (if tickDue s then tickEvent inp.drvErr s else s) (clkCycle inp s) := by
  have hout := foldl_applyEvent_encoderSame (outsideEvents inp s) (fun t i hi => applyEvent_outside inp s t i hi)
  rw [clkCycle_eq inp s hr, sampledEvents_of_not_run inp s h, List.foldl_append]
  split
  · exact { hout (tickEvent inp.drvErr s) with }
  · exact { hout s with }

theorem clkCycle_div_wraps (inp : PortIn) (s : State) (hr : inp.rst = false) (hdue : tickDue s = true) :
    (clkCycle inp s).div = 0 := by
  obtain ⟨hrun, hlast⟩ := (tickDue_iff s).mp hdue
  simp [clkCycle_eq inp s hr, hrun, hlast]

theorem clkCycle_div_counts (inp : PortIn) (s : State) (hr : inp.rst = false) (hrun : s.clkRun = true)
    (hdue : ¬ tickDue s = true) : (clkCycle inp s).div = s.div + 1 := by
  have hlast : s.div ≠ s.cfg.half - 1 := fun hlast => hdue ((tickDue_iff s).mpr ⟨hrun, hlast⟩)
  simp [clkCycle_eq inp s hr, hrun, hlast]

/-! ### The run from the close to its completion (43_encoder.md R186) -/

/-- `m` cycles and `j` ticks after `s` the run stands in `t`: the first `j` pending levels are logged, the others are still to
be sent, and the divider shows how far the cycles are past the last tick. -/
structure DrainedTo (s : State) (m j : Nat) (t : State) : Prop where
  cfg       : t.cfg = s.cfg
  draining  : Draining t
  div_bound : t.div < s.cfg.half
  count     : m + s.div = j * s.cfg.half + t.div
  left      : pendingLevels t = (pendingLevels s).drop j
  logged    : t.txLog = s.txLog ++ (pendingLevels s).take j

theorem DrainedTo.start {s : State} (h : CoreInv s) (hmode : s.encMode = .closing) : DrainedTo s 0 0 s where
  cfg := rfl
  draining := h.draining hmode
  div_bound := h.div_bound
  count := by omega
  left := rfl
  logged := by simp

/-- The number of ticks so far is that of the divider's wraps. -/
theorem DrainedTo.ticks_eq {s t : State} {m j : Nat} (h : DrainedTo s m j t) : (m + s.div) / s.cfg.half = j := by
  have hb := h.div_bound
  rw [h.count, Nat.mul_comm, Nat.mul_add_div (by omega), Nat.div_eq_of_lt hb, Nat.add_zero]

/-- A cycle with no tick due moves the divider alone. -/
theorem DrainedTo.wait {s t : State} {m j : Nat} (h : DrainedTo s m j t) (inp : PortIn) (hr : inp.rst = false)
    (hdue : ¬ tickDue t = true) : DrainedTo s (m + 1) j (clkCycle inp t) := by
  have hsame := clkCycle_encoderSame inp t hr (by simp [h.draining.closing])
  rw [if_neg hdue] at hsame
  have hdiv := clkCycle_div_counts inp t hr h.draining.clock hdue
  have hlast : t.div ≠ t.cfg.half - 1 := fun hl => hdue ((tickDue_iff t).mpr ⟨h.draining.clock, hl⟩)
  rw [h.cfg] at hlast
  have hb := h.div_bound
  have hc := h.count
  exact { cfg := hsame.cfg.trans h.cfg
          draining := hsame.draining h.draining
          div_bound := by omega
          count := by omega
          left := hsame.pendingLevels_eq.trans h.left
          logged := hsame.txLog.trans h.logged }

/-- A cycle whose tick sends `l`: one more level is logged. -/
theorem DrainedTo.send {s t u : State} {m j : Nat} {l : Level} (h : DrainedTo s m j t) (hsend : Sends l t u)
    (hlast : t.div = t.cfg.half - 1) (hdiv : u.div = 0) : DrainedTo s (m + 1) (j + 1) u := by
  have hdrop : (pendingLevels s).drop j = l :: pendingLevels u := h.left.symm.trans hsend.next
  have hhead : (pendingLevels s)[j]? = some l := by rw [← List.head?_drop, hdrop]; rfl
  have hb := h.div_bound
  have hc := h.count
  rw [h.cfg] at hlast
  exact { cfg := hsend.cfg.trans h.cfg
          draining := hsend.draining
          div_bound := by omega
          count := by rw [Nat.add_one_mul]; omega
          left := by rw [← List.tail_drop, hdrop, List.tail_cons]
          logged := by rw [hsend.logged, h.logged, List.take_add_one, hhead, List.append_assoc]; rfl }

/-- A cycle with a tick due sends a level, or everything is logged and it completes the close. -/
theorem DrainedTo.tick {s t : State} {m j : Nat} (h : DrainedTo s m j t) (inp : PortIn) (hr : inp.rst = false)
    (hdue : tickDue t = true) :
    (pendingLevels t ≠ [] ∧ DrainedTo s (m + 1) (j + 1) (clkCycle inp t)) ∨
    (pendingLevels t = [] ∧ EncoderSame (completeClose t) (clkCycle inp t)) := by
  have hsame := clkCycle_encoderSame inp t hr (by simp [h.draining.closing])
  rw [if_pos hdue] at hsame
  rcases tickEvent_draining inp.drvErr t h.draining with ⟨l, hsend⟩ | ⟨hempty, hdone⟩
  · have hnext := h.send (hsend.trans_same hsame) ((tickDue_iff t).mp hdue).2 (clkCycle_div_wraps inp t hr hdue)
    exact .inl ⟨by simp [hsend.next], hnext⟩
  · rw [hdone] at hsame
    exact .inr ⟨hempty, { hsame with }⟩

theorem DrainedTo.left_eq_nil_iff {s t : State} {m j : Nat} (h : DrainedTo s m j t) :
    pendingLevels t = [] ↔ (pendingLevels s).length ≤ j := by
  rw [h.left, List.drop_eq_nil_iff]

/-- A tick before the completing cycle still finds a level to send. -/
theorem DrainedTo.ticks_lt {s t : State} {m j : Nat} (h : DrainedTo s m j t) (hdue : tickDue t = true)
    (hdiv : s.div < s.cfg.half)
    (hm : m + 1 < (pendingLevels s).length * s.cfg.half + (s.cfg.half - s.div)) : j < (pendingLevels s).length := by
  have hlast := ((tickDue_iff t).mp hdue).2
  rw [h.cfg] at hlast
  have hc := h.count
  refine Nat.lt_of_mul_lt_mul_right (a := s.cfg.half) ?_
  omega

/-- Every cycle before the completing one finds the close draining, as many levels logged as ticks have taken place. -/
theorem runCycles_drainedTo (s : State) (inps : Nat → PortIn) (hinv : CoreInv s) (hmode : s.encMode = .closing)
    (hr : ∀ k, (inps k).rst = false) (m : Nat)
    (hm : m < (pendingLevels s).length * s.cfg.half + (s.cfg.half - s.div)) :
    ∃ j, DrainedTo s m j (runCycles inps m s) := by
  induction m with
  | zero => exact ⟨0, DrainedTo.start hinv hmode⟩
  | succ m ih =>
    obtain ⟨j, hj⟩ := ih (by omega)
    by_cases hdue : tickDue (runCycles inps m s) = true
    · obtain ⟨-, hnext⟩ | ⟨hempty, -⟩ := hj.tick (inps m) (hr m) hdue
      · exact ⟨j + 1, hnext⟩
      · exact absurd (hj.left_eq_nil_iff.mp hempty) (Nat.not_le_of_lt (hj.ticks_lt hdue hinv.div_bound hm))
    · exact ⟨j, hj.wait (inps m) (hr m) hdue⟩

/-- In the last of these cycles everything is logged and a tick is due. -/
theorem DrainedTo.last {s t : State} {m j : Nat} (h : DrainedTo s m j t)
    (hm : m + 1 = (pendingLevels s).length * s.cfg.half + (s.cfg.half - s.div)) (hdiv : s.div < s.cfg.half) :
    j = (pendingLevels s).length ∧ tickDue t = true := by
  have hc := h.count
  have hj : j = (pendingLevels s).length := by
    have hsum : m + s.div = s.cfg.half * (pendingLevels s).length + (s.cfg.half - 1) := by
      rw [Nat.mul_comm]; omega
    rw [← h.ticks_eq, hsum, Nat.mul_add_div (by omega), Nat.div_eq_of_lt (by omega), Nat.add_zero]
  refine ⟨hj, (tickDue_iff t).mpr ⟨h.draining.clock, ?_⟩⟩
  rw [h.cfg]
  rw [hj] at hc
  omega

/-- The completing cycle: its tick finds all pending levels logged. -/
theorem DrainedTo.completes {s t : State} {m j : Nat} (h : DrainedTo s m j t)
    (hm : m + 1 = (pendingLevels s).length * s.cfg.half + (s.cfg.half - s.div)) (hdiv : s.div < s.cfg.half)
    (inp : PortIn) (hr : inp.rst = false) :
    t.txLog = s.txLog ++ pendingLevels s ∧ EncoderSame (completeClose t) (clkCycle inp t) := by
  obtain ⟨hall, hdue⟩ := h.last hm hdiv
  have hempty : pendingLevels t = [] := h.left_eq_nil_iff.mpr hall.ge
  obtain ⟨hne, -⟩ | ⟨-, hdone⟩ := h.tick inp hr hdue
  · exact absurd hempty hne
  · exact ⟨by rw [h.logged, hall, List.take_length], hdone⟩

/-- Settles O17: up to the completing cycle the close drains, by induction on the cycles; that cycle's tick finds nothing left to
send. -/
theorem closeDrainsAndCompletes : Obligations.CloseDrainsAndCompletes := by
  intro s inps hinv hmode hr n
  have hdrain := runCycles_drainedTo s inps hinv hmode hr
  have hdiv := hinv.div_bound
  obtain ⟨m, hm⟩ : ∃ m, n = m + 1 := Nat.exists_eq_add_one.mpr (by omega)
  obtain ⟨j, hj⟩ := hdrain m (by omega)
  obtain ⟨hlog, hdone⟩ := hj.completes hm.symm hdiv (inps m) (hr m)
  rw [hm]
  refine ⟨hdone.closeDone, hdone.encMode, hdone.txLog.trans hlog, fun k hk => ?before⟩
  case before =>
    obtain ⟨i, hi⟩ := hdrain k (hk.trans_eq hm.symm)
    exact ⟨hi.draining.pending, by rw [hi.ticks_eq]; exact hi.logged⟩

end Sys2Proof.Machine
end

section
/-! The bits of a frame as they are delivered (44_decoder.md R210 to R212). -/

namespace Sys2Proof

/-- Assigning one bit of a byte sets that bit and keeps the others (00_scope.md R10). -/
theorem getLsbD_setBit (v : Byte) (i j : Nat) (b : Bool) (hj : j < 8) :
    (setBit v i b).getLsbD j = if j = i then b else v.getLsbD j := by
  have hone : (1#8 <<< i).getLsbD j = decide (j = i) := by
    rw [BitVec.getLsbD_shiftLeft, BitVec.getLsbD_one]
    grind
  cases b
  case false =>
    rw [setBit, if_neg Bool.false_ne_true, BitVec.getLsbD_and, BitVec.getLsbD_not, hone]
    by_cases hji : j = i <;> simp [hj, hji]
  case true =>
    rw [setBit, if_pos rfl, BitVec.getLsbD_or, hone]
    by_cases hji : j = i <;> simp [hji]

namespace Machine

/-! ### What a delivered bit does at each slot -/

theorem deliver_start_zero (s : State) (h : s.slot = 0) : deliver false s = { s with slot := 1, shreg := 0x00 } := by
  simp [deliver, deliverStart, h]

theorem deliver_start_one (s : State) (hs : s.sync = .synced) (h : s.slot = 0) :
    deliver true s = resync .framingStart s := by
  rw [deliver, if_pos h, deliverStart, if_pos rfl, raise_synced .framingStart 0 s rfl hs]

theorem deliver_data (b : Bool) (s : State) (h1 : 1 ≤ s.slot) (h8 : s.slot ≤ 8) :
    deliver b s = { s with shreg := setBit s.shreg (s.slot - 1) b, slot := s.slot + 1 } := by
  rw [deliver, if_neg (by omega), if_pos h8, deliverData]

theorem deliver_stop_one (s : State) (h : s.slot = 9) :
    deliver true s = { s with slot := 0, rxBytes := s.rxBytes ++ [s.shreg], rxEmit := some s.shreg } := by
  simp [deliver, deliverStop, emitByte, h]

theorem deliver_stop_zero (s : State) (hs : s.sync = .synced) (h : s.slot = 9) :
    deliver false s = resync .framingStop s := by
  simp [deliver, deliverStop, h, raise_synced .framingStop 0 s rfl hs]

/-! ### The rows that deliver a bit -/

theorem exec_deliverStart (b : Bool) (s : State) (hs : s.sync = .synced) (h : s.slot = 0) :
    exec (.deliverStart b) s = .next (deliver b s) := by
  simpa [deliverInstr, h] using exec_deliverInstr b s hs (by omega)

theorem exec_deliverData (b : Bool) (s : State) (hs : s.sync = .synced) (h1 : 1 ≤ s.slot) (h8 : s.slot ≤ 8) :
    exec (.deliverData b) s = .next (deliver b s) := by
  simpa [deliverInstr, h8, Nat.ne_of_gt h1] using exec_deliverInstr b s hs (by omega)

theorem exec_deliverStop (b : Bool) (s : State) (hs : s.sync = .synced) (h : s.slot = 9) :
    exec (.deliverStop b) s = .next (deliver b s) := by
  simpa [deliverInstr, h] using exec_deliverInstr b s hs (by omega)

/-- Settles O36: each row delivers the bit of its slot, and `setBit` writes the one bit of a data bit. -/
theorem bitsOfAFrameDelivered : Obligations.BitsOfAFrameDelivered := by
  intro s hs
  refine ⟨fun h0 => ⟨?opens, ?badStart⟩, fun b h1 h8 => ⟨setBit s.shreg (s.slot - 1) b, ?data, fun j hj => ?bits⟩,
    fun h9 => ⟨?emits, ?badStop⟩⟩
  case opens => rw [exec_deliverStart _ s hs h0, deliver_start_zero s h0]
  case badStart => rw [exec_deliverStart _ s hs h0, deliver_start_one s hs h0, resync_eq]
  case data => rw [exec_deliverData b s hs h1 h8, deliver_data b s h1 h8]
  case bits => exact getLsbD_setBit s.shreg (s.slot - 1) j b hj
  case emits => rw [exec_deliverStop _ s hs h9, deliver_stop_one s h9]
  case badStop => rw [exec_deliverStop _ s hs h9, deliver_stop_zero s hs h9, resync_eq]

end Machine

end Sys2Proof
end

section
/-! An edge in each state and class: the case of the decoder's step it takes, and the row of format DECODE that is this case
(44_decoder.md R201, R204 to R208, R213, R215). -/

namespace Sys2Proof

/-- An interval of 0 is in neither window (41_classifier.md R132, R133). -/
theorem classify_zero_of_legal (c : Params) (h : c.Legal) : classify c 0 = .neither := by
  obtain ⟨-, -, -, -, -, htol, -⟩ := h
  have hhalf : within 0 c.half c.tol = false := by simp [within]; omega
  have hfull : within 0 c.bit c.tol = false := by simp [within, Params.bit]; omega
  simp [classify, hhalf, hfull]

namespace Machine

/-! ### The rows -/

/-- The row of format DECODE for a state of synchronisation and a class (44_decoder.md R217). -/
def edgeRow : Sync → IvClass → Dir → Nat → Instr
  | .searching, .halfIv => .edgeSHalf
  | .searching, .fullIv => .edgeSFull
  | .searching, .neither => .edgeSNeither
  | .synced, .halfIv => .edgeYHalf
  | .synced, .fullIv => .edgeYFull
  | .synced, .neither => .edgeYNeither

theorem selects_iff (y : Sync) (c : IvClass) (ts : Nat) (s : State) :
    selects y c ts s = true ↔ s.haveLast = true ∧ s.sync = y ∧ edgeClass s ts = c := by
  simp [selects, and_assoc]

/-- The row that the state and the interval select is the whole step of the edge. -/
theorem exec_edgeRow {y : Sync} {c : IvClass} (d : Dir) (ts : Nat) (s : State) (h : selects y c ts s = true) :
    exec (edgeRow y c d ts) s = .next (edgeEvent d ts s) := by
  obtain ⟨hl, hy, hc⟩ := (selects_iff y c ts s).mp h
  cases y <;> cases c <;>
    simp [edgeRow, exec, execEdgeSHalf, execEdgeSFull, execEdgeSNeither, execEdgeYHalf, execEdgeYFull, execEdgeYNeither,
      edgeEvent, h, hl, hy, hc]

theorem exec_edgeTsOrder (d : Dir) (ts : Nat) (s : State) (hl : s.haveLast = true) (hlt : ts < s.lastTs) :
    exec (.edgeTsOrder d ts) s = .next (edgeEvent d ts s) := by
  obtain ⟨hclass, hcause, hbad⟩ := edge_of_lt s ts hlt
  cases hy : s.sync <;> simp [exec, execEdgeTsOrder, edgeEvent, hl, hy, hclass, hcause, hbad]

/-- The edge and the row of its case answer the same next state. -/
theorem exec_of_mem_rows {y : Sync} {c : IvClass} (d : Dir) (ts : Nat) (s : State) (hl : s.haveLast = true)
    (hy : s.sync = y) (hc : edgeClass s ts = c) : ∀ i ∈ [edgeInstr d ts, edgeRow y c d ts],
      exec i s = .next (edgeEvent d ts s) := by
  have hrow := exec_edgeRow d ts s ((selects_iff y c ts s).mpr ⟨hl, hy, hc⟩)
  simp [exec_edgeInstr, hrow]

/-- When the timestamp decreases, EDGE_TS_ORDER is this case too (44_decoder.md R203). -/
theorem exec_of_mem_rows_of_lt {y : Sync} (d : Dir) (ts : Nat) (s : State) (hl : s.haveLast = true) (hy : s.sync = y)
    (hlt : ts < s.lastTs) : ∀ i ∈ [edgeInstr d ts, .edgeTsOrder d ts, edgeRow y .neither d ts],
      exec i s = .next (edgeEvent d ts s) := by
  have hrow := exec_edgeRow d ts s ((selects_iff y .neither ts s).mpr ⟨hl, hy, (edge_of_lt s ts hlt).1⟩)
  simp [exec_edgeInstr, exec_edgeTsOrder d ts s hl hlt, hrow]

/-! ### The edge's next state in each case -/

theorem edgeEvent_searching_half (d : Dir) (ts : Nat) (s : State) (hl : s.haveLast = true) (hy : s.sync = .searching)
    (hc : edgeClass s ts = .halfIv) : edgeEvent d ts s = searchHalf (setLast ts s) := by
  simp [edgeEvent, hl, hy, hc]

theorem edgeEvent_searching_neither (d : Dir) (ts : Nat) (s : State) (hl : s.haveLast = true) (hy : s.sync = .searching)
    (hc : edgeClass s ts = .neither) : edgeEvent d ts s = slipSearching (neitherCause s ts) (setLast ts s) := by
  simpa [hl, hy, hc] using edgeEvent_cases d ts s

theorem edgeEvent_synced_half (d : Dir) (ts : Nat) (s : State) (hl : s.haveLast = true) (hy : s.sync = .synced)
    (hc : edgeClass s ts = .halfIv) : edgeEvent d ts s = syncHalf d (setLast ts s) := by
  simp [edgeEvent, hl, hy, hc]

theorem edgeEvent_synced_full (d : Dir) (ts : Nat) (s : State) (hl : s.haveLast = true) (hy : s.sync = .synced)
    (hc : edgeClass s ts = .fullIv) : edgeEvent d ts s = syncFull d (setLast ts s) := by
  simp [edgeEvent, hl, hy, hc]

theorem edgeEvent_synced_neither (d : Dir) (ts : Nat) (s : State) (hl : s.haveLast = true) (hy : s.sync = .synced)
    (hc : edgeClass s ts = .neither) :
    edgeEvent d ts s = resync (neitherCause s ts) { setLast ts s with run := 0 } := by
  simpa [hl, hy, hc] using edgeEvent_cases d ts s

theorem syncHalf_mid (d : Dir) (s : State) (hp : s.phase = .mid) :
    syncHalf d s = { s with run := sat s.cfg (s.run + 1), phase := .boundary } := by simp [syncHalf, hp]

theorem syncHalf_boundary (d : Dir) (s : State) (hp : s.phase = .boundary) :
    syncHalf d s = deliver (bitval d) { s with run := sat s.cfg (s.run + 1), phase := .mid } := by simp [syncHalf, hp]

theorem syncFull_mid (d : Dir) (s : State) (hp : s.phase = .mid) :
    syncFull d s = deliver (bitval d) { s with run := 0 } := by simp [syncFull, hp]

theorem syncFull_boundary (d : Dir) (s : State) (hy : s.sync = .synced) (hp : s.phase = .boundary) :
    syncFull d s = resync .phaseViolation { s with run := 0 } := by
  simpa [syncFull, hp] using raise_synced .phaseViolation 0 { s with run := 0 } rfl hy

/-! ### Searching -/

/-- Settles O29: the edge and its row are the searching half-bit case. -/
theorem searchingHalfCountsRun : Obligations.SearchingHalfCountsRun := by
  intro d ts s hl hy hle hc i hi
  have hclass : edgeClass s ts = .halfIv := (edge_of_le s ts hle).1.trans hc
  rw [exec_of_mem_rows d ts s hl hy hclass i hi, edgeEvent_searching_half d ts s hl hy hclass]
  rfl

/-- Settles O31: a `NEITHER` interval slips the search, its cause that of the order of the timestamps. -/
theorem searchingNeitherReports : Obligations.SearchingNeitherReports := by
  intro d ts s hl hy
  refine ⟨fun hle hc i hi => ?slip, fun hlt i hi => ?order⟩
  case slip =>
    obtain ⟨hclass, hcause, -⟩ := edge_of_le s ts hle
    rw [hc] at hclass
    rw [exec_of_mem_rows d ts s hl hy hclass i hi, edgeEvent_searching_neither d ts s hl hy hclass, hcause,
      slipSearching_eq, setLast]
  case order =>
    obtain ⟨hclass, hcause, -⟩ := edge_of_lt s ts hlt
    rw [exec_of_mem_rows_of_lt d ts s hl hy hlt i hi, edgeEvent_searching_neither d ts s hl hy hclass, hcause,
      slipSearching_eq, setLast]

/-! ### Synced -/

/-- Settles O32: after a boundary edge the row of the slot delivers the bit of the state with the new reference, run and phase. -/
theorem syncedHalfTracksPhase : Obligations.SyncedHalfTracksPhase := by
  intro d ts s hl hy hle hc h9 run' i hi
  have hclass : edgeClass s ts = .halfIv := (edge_of_le s ts hle).1.trans hc
  have hrun : run' = sat s.cfg (s.run + 1) := rfl
  rw [exec_of_mem_rows d ts s hl hy hclass i hi, edgeEvent_synced_half d ts s hl hy hclass, hrun]
  refine ⟨fun hp => ?mid, fun hp => ?boundary⟩
  case mid => rw [syncHalf_mid d (setLast ts s) hp]; rfl
  case boundary =>
    rw [syncHalf_boundary d (setLast ts s) hp]
    exact (exec_deliverInstr (bitval d) { s with lastTs := ts, run := sat s.cfg (s.run + 1), phase := .mid } hy h9).symm

/-- Settles O33: after a mid-bit edge the bit is delivered with the run cleared, at slots 0 and 9 by the frame's equations. -/
theorem syncedFullDeliversBit : Obligations.SyncedFullDeliversBit := by
  intro d ts s hl hy hle hc h9 i hi
  have hclass : edgeClass s ts = .fullIv := (edge_of_le s ts hle).1.trans hc
  have hmid := syncFull_mid d (setLast ts s)
  rw [exec_of_mem_rows d ts s hl hy hclass i hi, edgeEvent_synced_full d ts s hl hy hclass]
  refine ⟨fun hp h0 hd => ?start, fun hp hslot hd => ?stop, fun hp => ?bit, fun hp => ?violation⟩
  case start =>
    rw [hmid hp, hd]
    exact congrArg Host.Outcome.next (deliver_start_zero { s with lastTs := ts, run := 0 } h0)
  case stop =>
    rw [hmid hp, hd]
    exact congrArg Host.Outcome.next (deliver_stop_one { s with lastTs := ts, run := 0 } hslot)
  case bit =>
    rw [hmid hp]
    exact (exec_deliverInstr (bitval d) { s with lastTs := ts, run := 0 } hy h9).symm
  case violation => rw [syncFull_boundary d (setLast ts s) hy hp, resync_eq, setLast]

/-- Settles O34: a `NEITHER` interval resynchronises, and in a legal configuration the interval of 0 is one. -/
theorem syncedNeitherResyncs : Obligations.SyncedNeitherResyncs := by
  intro d ts s hl hy
  refine ⟨fun hle hc i hi => ?slip, fun hlt i hi => ?order⟩
  case slip =>
    have hneither : classify s.cfg (ts - s.lastTs) = .neither := by
      obtain hc | ⟨hlegal, heq⟩ := hc
      · exact hc
      · rw [heq, Nat.sub_self, classify_zero_of_legal s.cfg hlegal]
    obtain ⟨hclass, hcause, -⟩ := edge_of_le s ts hle
    rw [hneither] at hclass
    rw [exec_of_mem_rows d ts s hl hy hclass i hi, edgeEvent_synced_neither d ts s hl hy hclass, hcause, resync_eq,
      setLast]
  case order =>
    obtain ⟨hclass, hcause, -⟩ := edge_of_lt s ts hlt
    rw [exec_of_mem_rows_of_lt d ts s hl hy hlt i hi, edgeEvent_synced_neither d ts s hl hy hclass, hcause, resync_eq,
      setLast]

/-! ### The reference of the next interval -/

/-- The next interval is measured from an edge at `ts` (44_decoder.md R204). -/
def ReferenceAt (ts : Nat) (t : State) : Prop := t.haveLast = true ∧ t.lastTs = ts

theorem searchFull_referenceAt (d : Dir) (ts : Nat) (s : State) (h : ReferenceAt ts s) :
    ReferenceAt ts (searchFull d s) := by
  unfold searchFull; split <;> exact h

theorem deliver_referenceAt (b : Bool) (ts : Nat) (s : State) (hy : s.sync = .synced) (h : ReferenceAt ts s) :
    ReferenceAt ts (deliver b s) := by
  obtain ⟨-, -, he⟩ | ⟨-, -, he⟩ | ⟨-, -, he⟩ | ⟨-, -, he⟩ | ⟨-, -, he⟩ := deliver_cases b s hy <;>
    rw [he] <;> exact h

theorem syncHalf_referenceAt (d : Dir) (ts : Nat) (s : State) (hy : s.sync = .synced) (h : ReferenceAt ts s) :
    ReferenceAt ts (syncHalf d s) := by
  cases hp : s.phase
  case mid => rw [syncHalf_mid d s hp]; exact h
  case boundary => rw [syncHalf_boundary d s hp]; exact deliver_referenceAt _ ts _ hy h

theorem syncFull_referenceAt (d : Dir) (ts : Nat) (s : State) (hy : s.sync = .synced) (h : ReferenceAt ts s) :
    ReferenceAt ts (syncFull d s) := by
  cases hp : s.phase
  case mid => rw [syncFull_mid d s hp]; exact deliver_referenceAt _ ts _ hy h
  case boundary => rw [syncFull_boundary d s hy hp]; exact h

/-- The edge sets the reference first, and no case of the step writes it again. -/
theorem edgeEvent_referenceAt (d : Dir) (ts : Nat) (s : State) : ReferenceAt ts (edgeEvent d ts s) := by
  obtain ⟨-, he⟩ | ⟨hl, hcases⟩ := edgeEvent_cases d ts s
  · rw [he]; exact ⟨rfl, rfl⟩
  · have hset : ReferenceAt ts (setLast ts s) := ⟨hl, rfl⟩
    obtain ⟨-, -, he⟩ | ⟨-, -, he⟩ | ⟨-, -, he⟩ | ⟨hy, -, he⟩ | ⟨hy, -, he⟩ | ⟨-, -, he⟩ := hcases <;> rw [he]
    · exact hset
    · exact searchFull_referenceAt d ts _ hset
    · exact hset
    · exact syncHalf_referenceAt d ts _ hy hset
    · exact syncFull_referenceAt d ts _ hy hset
    · exact hset

theorem edgeEvent_cfg (d : Dir) (ts : Nat) (s : State) : (edgeEvent d ts s).cfg = s.cfg := by
  rw [edgeEvent_frame, withDecoderOf]

/-- Settles O28: the edge sets the reference in every case, and the next class is that of the interval from it. -/
theorem everyEdgeSetsLast : Obligations.EveryEdgeSetsLast := by
  intro d ts s
  obtain ⟨hl, hts⟩ := edgeEvent_referenceAt d ts s
  refine ⟨edgeEvent d ts s, exec_edgeInstr d ts s, hts, hl, fun ts' hle => ?next⟩
  case next => rw [(edge_of_le _ ts' (hts.trans_le hle)).1, edgeEvent_cfg, hts]

end Machine

end Sys2Proof
end

section
/-! RESET, as the row and as the `rst` cycle (70_reset_and_hazards.md R280). -/

namespace Sys2Proof.Machine

theorem exec_reset (s : State) : exec .reset s = .next (doReset s) := rfl

/-- Settles O6: by `exec_reset` and `clkCycle_rst` the row and the cycle both answer `doReset s`, which takes nothing of the core
from `s`, so each element of it has its reset value by definition. -/
theorem resetSetsEveryElement : Obligations.ResetSetsEveryElement := by
  intro s inp hrst
  refine ⟨doReset s, exec_reset s, clkCycle_rst inp s hrst, ?elements⟩
  case elements => and_intros <;> rfl

end Sys2Proof.Machine
end

section
/-! The words of the operations: every row is read back from its own word, and nothing else is read as that row
(30_encoding.md sections 1 to 6 and 8; log entry 4). -/

namespace Sys2Proof

/-! ### From the operation to its word and back -/

theorem withBit_bitByte_end (b : Bool) (k : Bool → List Byte → Decoded) : withBit (bitByte b) k = k b [] := by
  simpa using withBit_bitByte b [] k

/-- The ten logical bits of a framed unit: the start bit 0 below the data bits, the stop bit 1 above them (30_encoding.md R95). -/
theorem decodeUnitF_leBytes (v : Byte) : decodeUnitF (leBytes 2 (2 * v.toNat + 512)) = .ok (.unitF v) := by
  have hv := v.isLt
  have hlo : (BitVec.ofNat 8 (2 * v.toNat + 512)).toNat = 2 * (v.toNat % 128) := by rw [BitVec.toNat_ofNat]; omega
  have hhi : (BitVec.ofNat 8 ((2 * v.toNat + 512) / 256)).toNat = 2 + v.toNat / 128 := by
    rw [BitVec.toNat_ofNat]; omega
  have hroom : ¬ 4 ≤ 2 + v.toNat / 128 := by omega
  have hdata : 2 * (v.toNat % 128) / 2 + 128 * (2 + v.toNat / 128 - 2) = v.toNat := by omega
  simp only [decodeUnitF, leBytes, withByte_cons, hlo, hhi, if_neg hroom, hdata]
  simp [finish]

theorem decodeUnitU_singleton (v : Byte) (h : v ≠ 0xFF) : decodeUnitU [v] = .ok (.unitU v) := if_neg h

theorem decodeQe9_unframed (v : Byte) (h : v ≠ 0xFF) : decodeQe9 [v, 0] = .ok (.qeReserved v) := if_neg h

theorem decodeBurst_burstUnits (bs : List Byte) :
    decodeBurst ((burstUnits bs).flatMap unitBytes) = .ok (.burst bs) := by
  simp only [decodeBurst, burstUnits, List.flatMap_cons, withUnit_unitBytes, and_self, if_true, decodeFrames_frames]

theorem decode_encode_resync (c : Cause) (h : c.isDecoder = true) :
    decode (encode (.resync c)) = .ok (.resync c) := by
  cases c
  case pinDriveFailure | writeAfterClose | closeReleaseFailure => exact absurd h Bool.false_ne_true
  case bitSlip | framingStart | framingStop | phaseViolation | tsOrder => rfl

/-- Settles O1: the rows with bits of their own by their formats' layouts; a row with a fixed word is read back by computation; in
the others each reader takes back the operand written for it. -/
theorem decodeOfEncode : Obligations.DecodeOfEncode := by
  intro i hwf
  cases i
  case unitF v => exact decodeUnitF_leBytes v
  case unitU v => exact decodeUnitU_singleton v (bne_iff_ne.mp hwf)
  case qeReserved v => exact decodeQe9_unframed v (bne_iff_ne.mp hwf)
  case burst bs => exact decodeBurst_burstUnits bs
  case resync c => exact decode_encode_resync c hwf
  case qops op =>
    cases op with
    | qlen | qpop => rfl
    | qpush u => simp [decode, encode, Instr.format, encodeBytes, decodeFunc, withByte_cons, withUnit_unitBytes_end, finish]
  case edgeR | edgeF => simp [decode, encode, Instr.format, encodeBytes, decodeEdge, withEdge_edgeBytes_end, finish]
  case tick | wopen | wgrant | wbyte | wend | wrefuse =>
    simp [decode, encode, Instr.format, encodeBytes, decodePort, withByte_cons, withBit_bitByte_end, withNat_natBytes,
      withNat_natBytes_end, finish]
  case edgeFirst | edgeTsOrder | edgeSHalf | edgeSFull | edgeSNeither | edgeYHalf | edgeYFull | edgeYNeither
      | deliverStart | deliverData | deliverStop =>
    simp [decode, encode, Instr.format, encodeBytes, decodeDecode, withByte_cons, withEdge_edgeBytes_end,
      withBit_bitByte_end, finish]
  case within | classify | unitBits | nhalves | halflevel | bitval =>
    simp [decode, encode, Instr.format, encodeBytes, decodeFunc, withByte_cons, withNat_natBytes, withNat_natBytes_end,
      withUnit_unitBytes, withUnit_unitBytes_end, withBit_bitByte_end, ofBit_toBit, finish]
  case causeWriteAfterClose =>
    simp [decode, encode, Instr.format, encodeBytes, decodeCause, withByte_cons, withNat_natBytes_end, finish]
  all_goals rfl

/-! ### From the word to the operation and back -/

/-- `d`, run on what follows the bytes `pre` of a word of format `f`, answers only well-formed operations, and only on their own
bytes. -/
def ReadsOwnWord (f : Format) (pre : List Byte) (d : List Byte → Decoded) : Prop :=
  ∀ bs i, d bs = .ok i → i.wellFormed = true ∧ encode i = { fmt := f, bytes := pre ++ bs }

namespace ReadsOwnWord

variable {f : Format} {pre : List Byte}

theorem of_finish {i : Instr} (hwf : i.wellFormed = true) (he : encode i = { fmt := f, bytes := pre }) :
    ReadsOwnWord f pre (finish i) := by
  intro bs j h
  obtain ⟨rfl, rfl⟩ := finish_ok h
  exact ⟨hwf, by rw [he, List.append_nil]⟩

theorem of_error (e : DecodeError) : ReadsOwnWord f pre fun _ => .error e := fun _ _ h => nomatch h

theorem of_withByte {k : Byte → List Byte → Decoded} (hk : ∀ b, ReadsOwnWord f (pre ++ [b]) (k b)) :
    ReadsOwnWord f pre (withByte · k) := by
  intro bs i h
  obtain ⟨b, rest, rfl, hrest⟩ := withByte_ok h
  rw [List.append_cons]
  exact hk b rest i hrest

theorem of_withNat {k : Nat → List Byte → Decoded} (hk : ∀ n, ReadsOwnWord f (pre ++ natBytes n) (k n)) :
    ReadsOwnWord f pre (withNat · k) := by
  intro bs i h
  obtain ⟨n, rest, rfl, hrest⟩ := withNat_ok h
  rw [← List.append_assoc]
  exact hk n rest i hrest

theorem of_withBit {k : Bool → List Byte → Decoded} (hk : ∀ b, ReadsOwnWord f (pre ++ bitByte b) (k b)) :
    ReadsOwnWord f pre (withBit · k) := by
  intro bs i h
  obtain ⟨b, rest, rfl, hrest⟩ := withBit_ok h
  rw [← List.append_assoc]
  exact hk b rest i hrest

theorem of_withUnit {k : TxUnit → List Byte → Decoded} (hk : ∀ u, ReadsOwnWord f (pre ++ unitBytes u) (k u)) :
    ReadsOwnWord f pre (withUnit · k) := by
  intro bs i h
  obtain ⟨u, rest, rfl, hrest⟩ := withUnit_ok h
  rw [← List.append_assoc]
  exact hk u rest i hrest

theorem of_withEdge {k : Dir → Nat → List Byte → Decoded}
    (hk : ∀ d ts, ReadsOwnWord f (pre ++ edgeBytes d ts) (k d ts)) : ReadsOwnWord f pre (withEdge · k) := by
  intro bs i h
  obtain ⟨d, ts, rest, rfl, hrest⟩ := withEdge_ok h
  rw [← List.append_assoc]
  exact hk d ts rest i hrest

end ReadsOwnWord

open ReadsOwnWord

theorem decodePort_readsOwnWord : ReadsOwnWord .port [] decodePort := by
  refine of_withByte fun b => ?_
  split
  case h_11 => exact of_error _
  all_goals rename_i h; rw [byte_of_toNat h]
  case h_1 | h_2 | h_6 | h_10 => exact of_finish rfl rfl
  case h_3 => exact of_withBit fun _ => of_finish rfl rfl
  case h_7 => exact of_withNat fun _ => of_withByte fun _ => of_finish rfl rfl
  case h_4 | h_5 | h_8 | h_9 => exact of_withNat fun _ => of_finish rfl rfl

theorem decodeDecode_readsOwnWord : ReadsOwnWord .decode [] decodeDecode := by
  refine of_withByte fun b => ?_
  split
  case h_13 => exact of_error _
  all_goals rename_i h; rw [byte_of_toNat h]
  case h_9 | h_10 | h_11 => exact of_withBit fun _ => of_finish rfl rfl
  case h_12 =>
    refine of_withByte fun c => ?_
    split
    case h_6 => exact of_error _
    all_goals rename_i hc; rw [byte_of_toNat hc]; exact of_finish rfl rfl
  all_goals exact of_withEdge fun _ _ => of_finish rfl rfl

theorem decodeFunc_readsOwnWord : ReadsOwnWord .func [] decodeFunc := by
  refine of_withByte fun b => ?_
  split
  case h_8 => exact of_error _
  all_goals rename_i h; rw [byte_of_toNat h]
  case h_1 =>
    exact of_withNat fun _ => of_withNat fun _ => of_withNat fun _ =>
      of_finish rfl (by simp [encode, encodeBytes, Instr.format])
  case h_2 => exact of_withNat fun _ => of_finish rfl rfl
  case h_3 | h_4 => exact of_withUnit fun _ => of_finish rfl rfl
  case h_5 => exact of_withUnit fun _ => of_withNat fun _ => of_finish rfl rfl
  case h_6 => exact of_withBit fun d => of_finish rfl (by cases d <;> rfl)
  case h_7 =>
    refine of_withByte fun c => ?_
    split
    case h_4 => exact of_error _
    all_goals rename_i hc; rw [byte_of_toNat hc]
    case h_1 | h_3 => exact of_finish rfl rfl
    case h_2 => exact of_withUnit fun _ => of_finish rfl rfl

theorem decodeCode_readsOwnWord : ReadsOwnWord .code [] decodeCode := by
  refine of_withByte fun e => of_withByte fun c => ?_
  split
  case h_13 | h_14 | h_15 | h_16 | h_17 | h_18 => exact of_error _
  all_goals rename_i he hc; rw [byte_of_toNat he, byte_of_toNat hc]; exact of_finish rfl rfl

theorem decodeCause_readsOwnWord : ReadsOwnWord .cause [] decodeCause := by
  refine of_withByte fun c => ?_
  split
  case h_9 => exact of_error _
  all_goals rename_i h; rw [byte_of_toNat h]
  case h_7 => exact of_withNat fun _ => of_finish rfl rfl
  all_goals exact of_finish rfl rfl

theorem decodeSym_readsOwnWord : ReadsOwnWord .sym [] decodeSym := by
  refine of_withByte fun b => ?_
  split
  case h_5 => exact of_error _
  all_goals rename_i h; rw [byte_of_toNat h]; exact of_finish rfl rfl

theorem decodeEdge_readsOwnWord : ReadsOwnWord .edge [] decodeEdge := by
  refine of_withEdge fun d ts => ?_
  cases d <;> exact of_finish rfl rfl

theorem decodeQe9_readsOwnWord : ReadsOwnWord .qe9 [] decodeQe9 := by
  refine of_withUnit fun ⟨framed, v⟩ => ?_
  cases framed
  case true => exact of_finish rfl rfl
  case false =>
    by_cases hv : v = 0xFF
    · simp only [hv]; exact of_finish rfl rfl
    · simp only [hv]; exact of_finish (bne_iff_ne.mpr hv) rfl

theorem decodeUnitU_readsOwnWord : ReadsOwnWord .unitU [] decodeUnitU := by
  refine of_withByte fun v => ?_
  by_cases hv : v = 0xFF
  · simp only [if_pos hv]; rw [hv]; exact of_finish rfl rfl
  · simp only [if_neg hv]; exact of_finish (bne_iff_ne.mpr hv) rfl

/-- The two bytes of a framed unit with its start and stop bits in place are those its data bits are written back to
(30_encoding.md R95). -/
theorem encodeBytes_unitF (lo hi : Byte) (hstart : lo.toNat % 2 = 0) (hstop : 2 ≤ hi.toNat) (hres : hi.toNat < 4) :
    encodeBytes (.unitF (BitVec.ofNat 8 (lo.toNat / 2 + 128 * (hi.toNat - 2)))) = [lo, hi] := by
  have hlo := lo.isLt
  have hv : (BitVec.ofNat 8 (lo.toNat / 2 + 128 * (hi.toNat - 2))).toNat = lo.toNat / 2 + 128 * (hi.toNat - 2) := by
    rw [BitVec.toNat_ofNat]; omega
  simp only [encodeBytes, leBytes, hv, List.cons.injEq, and_true]
  constructor <;> apply BitVec.eq_of_toNat_eq <;> rw [BitVec.toNat_ofNat] <;> omega

theorem decodeUnitF_readsOwnWord : ReadsOwnWord .unitF [] decodeUnitF := by
  refine of_withByte fun lo => of_withByte fun hi => ?_
  split_ifs with hres hframe
  case pos => exact of_error _
  case neg => exact of_error _
  exact of_finish rfl (congrArg (OpWord.mk .unitF) (encodeBytes_unitF lo hi hframe.1 hframe.2 (Nat.lt_of_not_le hres)))

theorem decodeBurst_readsOwnWord : ReadsOwnWord .burst [] decodeBurst := by
  refine of_withUnit fun u => of_withUnit fun u' => ?_
  split_ifs with hp
  case neg => exact of_error _
  obtain ⟨rfl, rfl⟩ := hp
  intro bs i h
  cases hvs : decodeFrames bs with
  | error e => simp [hvs] at h
  | ok vs =>
    obtain rfl : Instr.burst vs = i := by simpa [hvs] using h
    exact ⟨rfl, by simp [encode, Instr.format, encodeBytes, burstUnits, decodeFrames_ok bs vs hvs]⟩

/-- Every format's decoder reads, operand by operand, only bytes that the encoder writes. -/
theorem decode_readsOwnWord (f : Format) : ReadsOwnWord f [] fun bs => decode ⟨f, bs⟩ := by
  cases f
  case sym => exact decodeSym_readsOwnWord
  case unitF => exact decodeUnitF_readsOwnWord
  case unitU => exact decodeUnitU_readsOwnWord
  case burst => exact decodeBurst_readsOwnWord
  case qe9 => exact decodeQe9_readsOwnWord
  case edge => exact decodeEdge_readsOwnWord
  case port => exact decodePort_readsOwnWord
  case decode => exact decodeDecode_readsOwnWord
  case func => exact decodeFunc_readsOwnWord
  case code => exact decodeCode_readsOwnWord
  case cause => exact decodeCause_readsOwnWord

/-- Settles O2: the word is read with nothing before it. -/
theorem encodeOfDecode : Obligations.EncodeOfDecode := fun w i h => decode_readsOwnWord w.fmt w.bytes i h

end Sys2Proof
end

section
/-! The events of the producers, of the closer and of the tick, presented as rows (42_queue_arbiter.md R145 to R152, 43_encoder.md
R171 to R185): each takes place under its condition and leaves the state alone otherwise. -/

namespace Sys2Proof.Machine

/-! ### The rows -/

theorem onProducer_no_port (p : Nat) (s t : State) (hp : s.cfg.nprod ≤ p) :
    onProducer p s t = .fault (.noSuchProducer p) := if_neg (Nat.not_lt.mpr hp)

theorem exec_wopen (p : Nat) (s : State) (hp : p < s.cfg.nprod) : exec (.wopen p) s = .next s := if_pos hp

theorem exec_wgrant (p : Nat) (s : State) (hp : p < s.cfg.nprod) :
    exec (.wgrant p) s = .next (if canGrant s then grantEvent p s else s) := if_pos hp

theorem exec_wpre (s : State) : exec .wpre s = .next (if canPre s then preEvent s else s) := rfl

theorem exec_wbyte (p : Nat) (b : Byte) (s : State) (hp : p < s.cfg.nprod) :
    exec (.wbyte p b) s = .next (if canByte p s then byteEvent p b s else s) := if_pos hp

theorem exec_wend (p : Nat) (s : State) (hp : p < s.cfg.nprod) :
    exec (.wend p) s = .next (if canEnd p s then endEvent p s else s) := if_pos hp

theorem exec_wrefuse (p : Nat) (s : State) (hp : p < s.cfg.nprod) :
    exec (.wrefuse p) s = .next (if canRefuse p s then refuseEvent p s else s) := if_pos hp

theorem exec_causeWriteAfterClose (p : Nat) (s : State) (hp : p < s.cfg.nprod) :
    exec (.causeWriteAfterClose p) s = .next (if s.encMode != .run then raise .writeAfterClose p s else s) := if_pos hp

theorem exec_close (s : State) : exec .close s = .next (if canClose s then closeEvent s else s) := rfl

theorem exec_tick (fail : Bool) (s : State) :
    exec (.tick fail) s = .next (if tickDue s then tickEvent fail s else s) := rfl

/-! ### Opening a burst and pushing its units -/

/-- Settles O18: the row WGRANT where a grant can be given. -/
theorem grantOpensBurst : Obligations.GrantOpensBurst := by
  intro p s hp
  refine ⟨exec_wopen p s hp, fun hrun hfree => ?grant⟩
  case grant => rw [exec_wgrant p s hp, if_pos ((canGrant_iff s).mpr ⟨hrun, hfree⟩), grantEvent]

/-- Settles O19: the two pushing rows where their unit has room. -/
theorem pushesOfABurst : Obligations.PushesOfABurst := by
  intro p b s hp hrun howner hroom
  refine ⟨fun hpre => ?pre, fun hpre => ?byte⟩
  case pre =>
    have hcan : canPre s = true := (canPre_iff s).mpr ⟨hrun, by simp [howner], hpre, hroom⟩
    rw [exec_wpre, if_pos hcan, preEvent_eq, TxUnit.preamble]
  case byte =>
    rw [exec_wbyte p b s hp, if_pos ((canByte_iff p s).mpr ⟨hrun, howner, hpre, hroom⟩), byteEvent_eq, TxUnit.frame]

/-! ### Events that are held off -/

/-- Settles O21: the condition of each row fails in each of the named ways, and `onProducer` faults where there is no port. -/
theorem arbiterEventsHeldOff : Obligations.ArbiterEventsHeldOff := by
  intro p b s
  refine ⟨fun hpre => ?pre, fun hp => ⟨fun hgrant => ?grant, fun hbyte => ?byte, fun hend => ?ends, fun href => ?refuse⟩,
    fun hp => ?noPort⟩
  case pre =>
    have hcan : ¬ canPre s = true := by rw [canPre_iff]; grind
    rw [exec_wpre, if_neg hcan]
  case grant =>
    have hcan : ¬ canGrant s = true := by rw [canGrant_iff]; grind
    rw [exec_wgrant p s hp, if_neg hcan]
  case byte =>
    have hcan : ¬ canByte p s = true := by rw [canByte_iff]; grind
    rw [exec_wbyte p b s hp, if_neg hcan]
  case ends =>
    have hcan : ¬ canEnd p s = true := by rw [canEnd_iff]; grind
    rw [exec_wend p s hp, if_neg hcan]
  case refuse =>
    have hcan : ¬ canRefuse p s = true := by rw [canRefuse_iff]; grind
    rw [exec_wrefuse p s hp, if_neg hcan]
  case noPort =>
    intro i hi
    simp only [List.mem_cons, List.not_mem_nil, or_false] at hi
    obtain rfl | rfl | rfl | rfl | rfl | rfl := hi <;> exact onProducer_no_port p s _ hp

/-! ### The end of a call -/

theorem exec_wend_open (p : Nat) (s : State) (hp : p < s.cfg.nprod) (hrun : s.encMode = .run) (howner : s.owner = some p)
    (hpre : s.preLeft = 0) : exec (.wend p) s = .next { s with owner := none, wrDone := s.wrDone.set p true } := by
  rw [exec_wend p s hp, if_pos ((canEnd_iff p s).mpr ⟨hrun, howner, hpre⟩), endEvent_eq]

theorem exec_wrefuse_closed (p : Nat) (s : State) (hp : p < s.cfg.nprod) (hrun : s.encMode ≠ .run)
    (howner : s.owner ≠ some p) : exec (.wrefuse p) s = .next
      { s with wrCount := s.wrCount.set p 0, wrErr := s.wrErr.set p true, wrDone := s.wrDone.set p true } := by
  rw [exec_wrefuse p s hp, if_pos ((canRefuse_iff p s).mpr ⟨hrun, howner⟩), refuseEvent_eq p s howner]

/-- Settles O58: outside `RUN` the row raises the cause, which for a call that is not the owner's is its refusal. -/
theorem writeAfterCloseTaken : Obligations.WriteAfterCloseTaken := by
  intro p s hp
  refine ⟨fun hrun howner => ?refused, fun hrun => ?held⟩
  case refused =>
    rw [exec_causeWriteAfterClose p s hp, if_pos (bne_iff_ne.mpr hrun), raise_writeAfterClose_other p s howner,
      refuseCall_eq]
  case held => rw [exec_causeWriteAfterClose p s hp, hrun]; rfl

/-- Settles O16: the row CLOSE by the closed form of its event, with and without an open burst. -/
theorem closeCutsOpenBurst : Obligations.CloseCutsOpenBurst := by
  intro s
  refine ⟨fun hrun hfree => ?free, fun p hrun howner => ?cut, fun hrun => ?held⟩
  case free => rw [exec_close, if_pos ((canClose_iff s).mpr hrun), closeEvent_eq, hfree]
  case cut => rw [exec_close, if_pos ((canClose_iff s).mpr hrun), closeEvent_eq, howner]
  case held => rw [exec_close, if_neg (mt (canClose_iff s).mp hrun)]

/-! ### A whole call (42_queue_arbiter.md R145 to R149) -/

theorem execAll_cons (i : Instr) (is : List Instr) (s t : State) (h : exec i s = .next t) :
    execAll (i :: is) s = execAll is t := by rw [execAll, h]

/-- The bytes of an open burst whose preamble is pushed, where all of them have room. -/
theorem execAll_wbytes (p : Nat) (bs : List Byte) (s : State) (hport : p < s.cfg.nprod) (hlen : p < s.wrCount.length)
    (hrun : s.encMode = .run) (howner : s.owner = some p) (hpre : s.preLeft = 0)
    (hroom : s.q.length + bs.length ≤ s.cfg.qdepth) :
    execAll (bs.map (Instr.wbyte p)) s = .next
      { s with q := s.q ++ bs.map TxUnit.frame, wrCount := s.wrCount.set p (s.wrCount.getD p 0 + bs.length) } := by
  induction bs generalizing s with
  | nil => simp [execAll, List.getElem?_eq_getElem hlen]
  | cons b bs ih =>
    have hroom1 : s.q.length < s.cfg.qdepth := by rw [List.length_cons] at hroom; omega
    have hbyte : exec (.wbyte p b) s = .next (byteEvent p b s) := by
      rw [exec_wbyte p b s hport, if_pos ((canByte_iff p s).mpr ⟨hrun, howner, hpre, hroom1⟩)]
    have hrest : (byteEvent p b s).q.length + bs.length ≤ s.cfg.qdepth := by
      rw [byteEvent_eq]; simp at hroom ⊢; omega
    have hlen' : p < (byteEvent p b s).wrCount.length := by rw [byteEvent_eq]; simpa using hlen
    rw [List.map_cons, execAll_cons _ _ _ _ hbyte, ih (byteEvent p b s) hport hlen' hrun howner hpre hrest]
    simp [byteEvent_eq, hlen, Nat.add_assoc, Nat.add_comm 1]

/-- Settles O22: the grant, the two preamble units, the bytes by induction, and the end, each in the state the row before it
left. -/
theorem callEnqueuesBurst : Obligations.CallEnqueuesBurst := by
  intro p bs s hinv hp hrun hfree hroom
  let s1 := grantEvent p s
  let s3 := preEvent (preEvent s1)
  have hgrant : exec (.wgrant p) s = .next s1 := by
    rw [exec_wgrant p s hp, if_pos ((canGrant_iff s).mpr ⟨hrun, hfree⟩)]
  have hpre1 : exec .wpre s1 = .next (preEvent s1) := by
    have hroom1 : s.q.length < s.cfg.qdepth := by omega
    rw [exec_wpre, if_pos ((canPre_iff s1).mpr ⟨hrun, Option.some_ne_none p, Nat.two_pos, hroom1⟩)]
  have hpre2 : exec .wpre (preEvent s1) = .next s3 := by
    have hroom2 : (s.q ++ [TxUnit.preamble]).length < s.cfg.qdepth := by simp; omega
    rw [exec_wpre, if_pos ((canPre_iff (preEvent s1)).mpr ⟨hrun, Option.some_ne_none p, Nat.one_pos, hroom2⟩)]
  have hlen : p < s3.wrCount.length := by simpa [s3, s1, preEvent_eq, grantEvent, hinv.count_ports] using hp
  have hroom3 : s3.q.length + bs.length ≤ s3.cfg.qdepth := by simpa [s3, s1, preEvent_eq, grantEvent] using hroom
  let s4 : State :=
    { s3 with q := s3.q ++ bs.map TxUnit.frame, wrCount := s3.wrCount.set p (s3.wrCount.getD p 0 + bs.length) }
  have hbytes : execAll (bs.map (Instr.wbyte p)) s3 = .next s4 := execAll_wbytes p bs s3 hp hlen hrun rfl rfl hroom3
  rw [execAll_cons _ _ _ _ hgrant, execAll_cons _ _ _ _ hpre1, execAll_cons _ _ _ _ hpre2, execAll_append _ _ _ _ hbytes,
    execAll_cons _ _ _ _ (exec_wend_open p s4 hp hrun rfl rfl), execAll]
  have hcount : s.wrCount.length = s.cfg.nprod := hinv.count_ports
  simp [s4, s3, s1, preEvent_eq, grantEvent, burstUnits, hcount, hp]

/-! ### Ticks -/

theorem tickDue_of (s : State) (hrun : s.clkRun = true) (hdiv : s.div = s.cfg.half - 1) : tickDue s = true :=
  (tickDue_iff s).mpr ⟨hrun, hdiv⟩

theorem encoderStep_in_unit (fail : Bool) (s : State) (hbusy : s.busy = true) :
    encoderStep fail s = emitHalf s.cur s.pos fail s := if_pos hbusy

theorem encoderStep_dequeues (fail : Bool) (s : State) (hbusy : s.busy = false) {u : TxUnit} {rest : List TxUnit}
    (hq : s.q = u :: rest) : encoderStep fail s = emitHalf u 0 fail (popUnit u rest s) := by
  simp [encoderStep, hbusy, hq]

/-- Settles O11: the half-bit in its closed form. -/
theorem tickSetsNextHalf : Obligations.TickSetsNextHalf := by
  intro fail s hrun hdiv hbusy hpos
  rw [exec_tick_due fail s (tickDue_of s hrun hdiv), tickEvent, encoderStep_in_unit fail s hbusy,
    emitHalf_eq _ _ _ _ hpos]

/-- Settles O12: half-bit 0 of the unit taken from the head of the queue. -/
theorem tickDequeuesHead : Obligations.TickDequeuesHead := by
  intro fail u rest s hrun hdiv hbusy hq
  rw [exec_tick_due fail s (tickDue_of s hrun hdiv), tickEvent, encoderStep_dequeues fail s hbusy hq,
    emitHalf_eq _ _ _ _ (nhalves_pos u)]
  simp [popUnit, one_lt_nhalves u]

/-- Settles O14: the drained case of the encoder's step, and the row's own condition. -/
theorem tickCompletesClose : Obligations.TickCompletesClose := by
  intro fail s
  refine ⟨fun hrun hdiv hbusy hq hmode => ?completes, fun hnot => ?held⟩
  case completes =>
    rw [exec_tick_due fail s (tickDue_of s hrun hdiv), tickEvent, encoderStep_drained fail s hbusy hq hmode, completeClose]
  case held =>
    have hdue : ¬ tickDue s = true := by rw [tickDue_iff]; grind
    rw [exec_tick, if_neg hdue]

/-! ### The driver's answer (60_exceptions.md R242, R248) -/

/-- The closed form of a half-bit at any place of a unit (43_encoder.md R174, R175, R177). -/
theorem emitHalf_closed (u : TxUnit) (k : Nat) (fail : Bool) (s : State) : emitHalf u k fail s =
    { s with tx := halflevel u k, txLog := s.txLog ++ [halflevel u k], txSet := true,
             drvErrSticky := s.drvErrSticky || fail, busy := decide (k ≠ nhalves u - 1),
             pos := if k = nhalves u - 1 then 0 else k + 1 } := by
  by_cases hlast : k = nhalves u - 1 <;> cases fail <;> simp [emitHalf, hlast, raise_pinDriveFailure, setLevel]

/-- A tick sets a level when a unit is in flight or queued, and only then is the driver's answer seen. -/
theorem tickEvent_fail (s : State) : tickEvent true s =
    { tickEvent false s with drvErrSticky := (tickEvent false s).drvErrSticky || (s.busy || !s.q.isEmpty) } := by
  cases hbusy : s.busy
  case true => simp [tickEvent, encoderStep, hbusy, emitHalf_closed]
  case false =>
    cases hq : s.q with
    | cons u rest => simp [tickEvent, encoderStep, hbusy, hq, emitHalf_closed]
    | nil => by_cases hmode : s.encMode = .closing <;> simp [tickEvent, encoderStep, hbusy, hq, hmode]

/-- Settles O15: a tick that is due by `tickEvent_fail`; one that is not leaves the state alone with either answer. -/
theorem driverFailureSetsStickyOnly : Obligations.DriverFailureSetsStickyOnly := by
  refine ⟨fun s => rfl, fun s t h => ?tick, fun _ _ => rfl⟩
  case tick =>
    have hdue : tickDue s = (s.clkRun && s.div == s.cfg.half - 1) := rfl
    rw [exec_tick] at h ⊢
    obtain rfl := Host.Outcome.next.inj h
    rw [← hdue]
    cases tickDue s
    case true => simp [tickEvent_fail]
    case false => simp

/-- Settles O59: the row raises a cause without effect, and the port is the constant 0. -/
theorem closeReleaseNeverFails : Obligations.CloseReleaseNeverFails := by
  intro s t
  exact ⟨congrArg Host.Outcome.next (raise_closeReleaseFailure 0 s), rfl⟩

end Sys2Proof.Machine
end

section
/-! The decoder's rows: the first edge, the lock, the cases that are not selected, and the causes raised as rows
(44_decoder.md R202, R206, R214, 60_exceptions.md R243). -/

namespace Sys2Proof.Machine

/-! ### The first edge and the lock -/

/-- Settles O27: before any edge, the edge and the row EDGE_FIRST are the first edge. -/
theorem firstEdgeRecordsTime : Obligations.FirstEdgeRecordsTime := by
  intro d ts s hl i hi
  simp only [List.mem_cons, List.not_mem_nil, or_false] at hi
  obtain rfl | rfl := hi
  · have hfirst : edgeEvent d ts s = firstEdge ts s := by simp [edgeEvent, hl]
    rw [exec_edgeInstr, hfirst, firstEdge]
  · simp [exec, execEdgeFirst, hl, firstEdge]

theorem edgeEvent_searching_full (d : Dir) (ts : Nat) (s : State) (hl : s.haveLast = true) (hy : s.sync = .searching)
    (hc : edgeClass s ts = .fullIv) : edgeEvent d ts s = searchFull d (setLast ts s) := by
  simp [edgeEvent, hl, hy, hc]

theorem lockCond_iff (d : Dir) (s : State) : lockCond s d = true ↔ d = .rising ∧ s.cfg.syncRun ≤ s.run := by
  simp [lockCond]

/-- Settles O30: the edge and its row are the searching full-bit case, and `lockCond` decides. -/
theorem searchingFullLocks : Obligations.SearchingFullLocks := by
  intro d ts s hl hy hle hc i hi
  have hclass : edgeClass s ts = .fullIv := (edge_of_le s ts hle).1.trans hc
  rw [exec_of_mem_rows d ts s hl hy hclass i hi, edgeEvent_searching_full d ts s hl hy hclass]
  refine ⟨fun hd hrun => ?locks, fun hnot => ?clears⟩
  case locks => rw [searchFull, if_pos ((lockCond_iff d (setLast ts s)).mpr ⟨hd, hrun⟩), lock, setLast]
  case clears =>
    have hlock : ¬ lockCond (setLast ts s) d = true := by
      rw [lockCond_iff, setLast]
      rintro ⟨rfl, hrun⟩
      exact hnot.elim nofun hrun.not_gt
    rw [searchFull, if_neg hlock, setLast]

/-! ### The cases that are not selected -/

/-- A row whose case the state and the interval do not select does not take place (log entry 24). -/
theorem exec_edgeRow_unselected {y : Sync} {c : IvClass} (d : Dir) (ts : Nat) (s : State)
    (h : ¬ (s.haveLast = true ∧ s.sync = y ∧ edgeClass s ts = c)) : exec (edgeRow y c d ts) s = .next s := by
  have hsel : selects y c ts s = false := Bool.eq_false_iff.mpr (mt (selects_iff y c ts s).mp h)
  cases y <;> cases c <;> simp [edgeRow, exec, execEdgeSHalf, execEdgeSFull, execEdgeSNeither, execEdgeYHalf,
    execEdgeYFull, execEdgeYNeither, hsel]

theorem delivers_iff (lo hi : Nat) (s : State) :
    delivers lo hi s = true ↔ s.sync = .synced ∧ lo ≤ s.slot ∧ s.slot ≤ hi := by simp [delivers, and_assoc]

theorem exec_deliverStart_unselected (b : Bool) (s : State) (h : s.sync = .searching ∨ s.slot ≠ 0) :
    exec (.deliverStart b) s = .next s := by
  have hsel : ¬ delivers 0 0 s = true := by rw [delivers_iff]; grind
  exact congrArg Host.Outcome.next (if_neg hsel)

theorem exec_deliverData_unselected (b : Bool) (s : State) (h : s.sync = .searching ∨ s.slot = 0 ∨ 8 < s.slot) :
    exec (.deliverData b) s = .next s := by
  have hsel : ¬ delivers 1 8 s = true := by rw [delivers_iff]; grind
  exact congrArg Host.Outcome.next (if_neg hsel)

theorem exec_deliverStop_unselected (b : Bool) (s : State) (h : s.sync = .searching ∨ s.slot ≠ 9) :
    exec (.deliverStop b) s = .next s := by
  have hsel : ¬ delivers 9 9 s = true := by rw [delivers_iff]; grind
  exact congrArg Host.Outcome.next (if_neg hsel)

/-- Settles O35: each clause names a part of the row's condition that fails. -/
theorem unselectedCaseChangesNothing : Obligations.UnselectedCaseChangesNothing := by
  intro d b ts s
  have hrow := fun y c => exec_edgeRow_unselected (y := y) (c := c) d ts s
  simp only [List.forall_mem_cons, List.not_mem_nil, IsEmpty.forall_iff, implies_true, and_true]
  refine ⟨fun hl => ?first, fun h => ?order, ?searching, ?synced, fun hle => ?interval, fun hlt => ?decreasing,
    fun hy => ?bits, fun h0 => exec_deliverStart_unselected b s (.inr h0),
    fun h08 => exec_deliverData_unselected b s (.inr h08), fun h9 => exec_deliverStop_unselected b s (.inr h9)⟩
  case first => exact congrArg Host.Outcome.next (if_pos hl)
  case order =>
    have hsel : (s.haveLast && tsBad s ts) = false := by
      obtain hl | hle := h
      · rw [hl, Bool.false_and]
      · rw [(edge_of_le s ts hle).2.2, Bool.and_false]
    simp [exec, execEdgeTsOrder, hsel]
  case searching =>
    have hsel := fun c (h : s.haveLast = false ∨ s.sync = .synced) => hrow .searching c (by grind)
    exact ⟨hsel .halfIv, hsel .fullIv, hsel .neither⟩
  case synced =>
    have hsel := fun c (h : s.haveLast = false ∨ s.sync = .searching) => hrow .synced c (by grind)
    exact ⟨hsel .halfIv, hsel .fullIv, hsel .neither⟩
  case interval =>
    obtain ⟨hclass, -, -⟩ := edge_of_le s ts hle
    have hsel := fun y c (h : classify s.cfg (ts - s.lastTs) ≠ c) => hrow y c (fun ⟨_, _, hc⟩ => h (hclass.symm.trans hc))
    exact ⟨⟨hsel .searching .halfIv, hsel .synced .halfIv⟩, ⟨hsel .searching .fullIv, hsel .synced .fullIv⟩,
      hsel .searching .neither, hsel .synced .neither⟩
  case decreasing =>
    obtain ⟨hclass, -, -⟩ := edge_of_lt s ts hlt
    have hsel := fun y c (h : c ≠ .neither) => hrow y c (fun ⟨_, _, hc⟩ => h (hc.symm.trans hclass))
    exact ⟨hsel .searching .halfIv nofun, hsel .searching .fullIv nofun, hsel .synced .halfIv nofun,
      hsel .synced .fullIv nofun⟩
  case bits =>
    exact ⟨exec_deliverStart_unselected b s (.inl hy), exec_deliverData_unselected b s (.inl hy),
      exec_deliverStop_unselected b s (.inl hy)⟩

/-! ### Raising a decoder cause -/

/-- The rows of the five decoder causes, each with its cause (60_exceptions.md R241). -/
def decoderCauseRows : List (Instr × Cause) :=
  [(.causeBitSlip, .bitSlip), (.causeTsOrder, .tsOrder), (.causeFramingStart, .framingStart),
    (.causeFramingStop, .framingStop), (.causePhaseViolation, .phaseViolation)]

theorem exec_decoderCauseRow (i : Instr) (c : Cause) (s : State) (h : (i, c) ∈ decoderCauseRows) :
    c.isDecoder = true ∧ exec i s = .next (raise c 0 s) := by
  simp only [decoderCauseRows, List.mem_cons, Prod.mk.injEq, List.not_mem_nil, or_false] at h
  obtain ⟨rfl, rfl⟩ | ⟨rfl, rfl⟩ | ⟨rfl, rfl⟩ | ⟨rfl, rfl⟩ | ⟨rfl, rfl⟩ := h <;> exact ⟨rfl, rfl⟩

/-- Settles O57: the cause rows raise their causes, by the lemmas about `raise` in the two states of synchronisation. -/
theorem decoderCausesTaken : Obligations.DecoderCausesTaken := by
  intro s
  refine ⟨fun c _ => congrArg Host.Outcome.next (resync_eq c s), fun ⟨i, c⟩ hic => ?causes⟩
  case causes =>
    obtain ⟨hc, hexec⟩ := exec_decoderCauseRow i c s hic
    rw [hexec]
    refine ⟨fun hy => ?synced, fun hy hslip => ?slip, fun hy hb ht => ?other⟩
    case synced => rw [raise_synced c 0 s hc hy, resync_eq]
    case slip => rw [raise_slip_searching c 0 s hslip hy, slipSearching_eq]
    case other => rw [raise_other_searching c 0 s hc hb ht hy]

end Sys2Proof.Machine
end

section
/-! What an edge gives a consumer, and what the decoder reads (44_decoder.md R200, R201, R221, R251). -/

namespace Sys2Proof.Machine

/-! ### One emission or one cause -/

/-- What a decoder operation gives a consumer: a byte while synced, a decoder cause and the search, or nothing; the sequence and its
strobe together. -/
inductive DecoderOutput (s t : State) : Prop where
  | emits (v : Byte) (bytes : t.rxBytes = s.rxBytes ++ [v]) (emit : t.rxEmit = some v) (errs : t.rxErrs = s.rxErrs)
      (err : t.rxErr = s.rxErr) (before : s.sync = .synced) (after : t.sync = .synced)
  | reports (c : Cause) (errs : t.rxErrs = s.rxErrs ++ [c]) (err : t.rxErr = some c) (decoder : c.isDecoder = true)
      (bytes : t.rxBytes = s.rxBytes) (emit : t.rxEmit = s.rxEmit) (after : t.sync = .searching)
  | silent (bytes : t.rxBytes = s.rxBytes) (emit : t.rxEmit = s.rxEmit) (errs : t.rxErrs = s.rxErrs)
      (err : t.rxErr = s.rxErr)

/-- The output is measured from the sequences, the strobes and `sync` alone. -/
theorem DecoderOutput.of_before {s s' t : State} (h : DecoderOutput s' t) (hbytes : s'.rxBytes = s.rxBytes)
    (hemit : s'.rxEmit = s.rxEmit) (herrs : s'.rxErrs = s.rxErrs) (herr : s'.rxErr = s.rxErr) (hy : s'.sync = s.sync) :
    DecoderOutput s t := by
  cases h with
  | emits v bytes emit errs err before after =>
    exact .emits v (hbytes ▸ bytes) emit (errs.trans herrs) (err.trans herr) (hy.symm.trans before) after
  | reports c errs err decoder bytes emit after =>
    exact .reports c (herrs ▸ errs) err decoder (bytes.trans hbytes) (emit.trans hemit) after
  | silent bytes emit errs err =>
    exact .silent (bytes.trans hbytes) (emit.trans hemit) (errs.trans herrs) (err.trans herr)

theorem resync_output (c : Cause) (s : State) (hc : c.isDecoder = true) : DecoderOutput s (resync c s) :=
  .reports c rfl rfl hc rfl rfl rfl

theorem slipSearching_output (c : Cause) (s : State) (hc : c.isDecoder = true) (hy : s.sync = .searching) :
    DecoderOutput s (slipSearching c s) :=
  .reports c rfl rfl hc rfl rfl hy

theorem raise_output (c : Cause) (s : State) (hc : c.isDecoder = true) : DecoderOutput s (raise c 0 s) := by
  cases hy : s.sync
  case synced => rw [raise_synced c 0 s hc hy]; exact resync_output c s hc
  case searching =>
    by_cases hslip : c = .bitSlip ∨ c = .tsOrder
    · rw [raise_slip_searching c 0 s hslip hy]; exact slipSearching_output c s hc hy
    · rw [raise_other_searching c 0 s hc (fun h => hslip (.inl h)) (fun h => hslip (.inr h)) hy]
      exact .silent rfl rfl rfl rfl

theorem deliver_output (b : Bool) (s : State) (hy : s.sync = .synced) : DecoderOutput s (deliver b s) := by
  obtain ⟨-, -, he⟩ | ⟨-, -, he⟩ | ⟨-, -, he⟩ | ⟨-, -, he⟩ | ⟨-, -, he⟩ := deliver_cases b s hy <;> rw [he]
  · exact .silent rfl rfl rfl rfl
  · exact resync_output .framingStart s rfl
  · exact .silent rfl rfl rfl rfl
  · exact .emits s.shreg rfl rfl rfl rfl hy hy
  · exact resync_output .framingStop s rfl

theorem searchFull_output (d : Dir) (s : State) : DecoderOutput s (searchFull d s) := by
  unfold searchFull; split <;> exact .silent rfl rfl rfl rfl

theorem syncHalf_output (d : Dir) (s : State) (hy : s.sync = .synced) : DecoderOutput s (syncHalf d s) := by
  cases hp : s.phase
  case mid => rw [syncHalf_mid d s hp]; exact .silent rfl rfl rfl rfl
  case boundary =>
    rw [syncHalf_boundary d s hp]
    exact (deliver_output (bitval d) { s with run := sat s.cfg (s.run + 1), phase := .mid } hy).of_before
      rfl rfl rfl rfl rfl

theorem syncFull_output (d : Dir) (s : State) (hy : s.sync = .synced) : DecoderOutput s (syncFull d s) := by
  cases hp : s.phase
  case mid =>
    rw [syncFull_mid d s hp]
    exact (deliver_output (bitval d) { s with run := 0 } hy).of_before rfl rfl rfl rfl rfl
  case boundary =>
    rw [syncFull_boundary d s hy hp]
    exact .reports .phaseViolation rfl rfl rfl rfl rfl rfl

theorem edgeEvent_output (d : Dir) (ts : Nat) (s : State) : DecoderOutput s (edgeEvent d ts s) := by
  have hcause := neitherCause_isDecoder s ts
  obtain ⟨-, he⟩ | ⟨-, hcases⟩ := edgeEvent_cases d ts s
  · rw [he]; exact .silent rfl rfl rfl rfl
  · obtain ⟨-, -, he⟩ | ⟨-, -, he⟩ | ⟨hy, -, he⟩ | ⟨hy, -, he⟩ | ⟨hy, -, he⟩ | ⟨-, -, he⟩ := hcases <;> rw [he]
    · exact .silent rfl rfl rfl rfl
    · exact (searchFull_output d (setLast ts s)).of_before rfl rfl rfl rfl rfl
    · exact (slipSearching_output _ (setLast ts s) hcause hy).of_before rfl rfl rfl rfl rfl
    · exact (syncHalf_output d (setLast ts s) hy).of_before rfl rfl rfl rfl rfl
    · exact (syncFull_output d (setLast ts s) hy).of_before rfl rfl rfl rfl rfl
    · exact .reports _ rfl rfl hcause rfl rfl rfl

/-- Settles O37: the three outcomes of `DecoderOutput`. -/
theorem edgeEmitsOrReportsOnce : Obligations.EdgeEmitsOrReportsOnce := by
  intro d ts s t h
  rw [exec_edgeInstr] at h
  obtain rfl := Host.Outcome.next.inj h
  cases edgeEvent_output d ts s with
  | emits v bytes emit errs err before after => exact .inl ⟨v, bytes, errs, before, after⟩
  | reports c errs err decoder bytes emit after => exact .inr (.inl ⟨c, errs, decoder, bytes, after⟩)
  | silent bytes emit errs err => exact .inr (.inr ⟨bytes, errs⟩)

/-! ### What the decoder reads -/

theorem syncFull_raises (d : Dir) (s : State) (hp : s.phase = .boundary) :
    syncFull d s = raise .phaseViolation 0 { s with run := 0 } := by simp [syncFull, hp]

/-- `s'` shows the decoder what `s` does, every timestamp later by `n`; where `strobes` holds, their strobes agree too. -/
structure SameView (strobes : Prop) (n : Nat) (s s' : State) : Prop where
  cfg      : s'.cfg = s.cfg
  sync     : s'.sync = s.sync
  haveLast : s'.haveLast = s.haveLast
  lastTs   : s'.lastTs = s.lastTs + n
  phase    : s'.phase = s.phase
  run      : s'.run = s.run
  slot     : s'.slot = s.slot
  shreg    : s'.shreg = s.shreg
  rxBytes  : s'.rxBytes = s.rxBytes
  rxErrs   : s'.rxErrs = s.rxErrs
  pulses   : strobes → s'.rxEmit = s.rxEmit ∧ s'.rxErr = s.rxErr

section

variable {strobes : Prop} {n : Nat} {s s' : State}

theorem SameView.reportErr (h : SameView strobes n s s') (c : Cause) :
    SameView strobes n (reportErr c s) (reportErr c s') :=
  { h with rxErrs := congrArg (· ++ [c]) h.rxErrs, pulses := fun hp => ⟨(h.pulses hp).1, rfl⟩ }

theorem SameView.clearRun (h : SameView strobes n s s') :
    SameView strobes n { s with run := 0 } { s' with run := 0 } := { h with run := rfl }

theorem SameView.countRun (h : SameView strobes n s s') :
    SameView strobes n { s with run := sat s.cfg (s.run + 1) } { s' with run := sat s'.cfg (s'.run + 1) } :=
  { h with run := by rw [h.cfg, h.run] }

theorem SameView.setPhase (h : SameView strobes n s s') (p : Phase) :
    SameView strobes n { s with phase := p } { s' with phase := p } := { h with phase := rfl }

theorem SameView.resync (h : SameView strobes n s s') (c : Cause) : SameView strobes n (resync c s) (resync c s') :=
  have hsearch : SameView strobes n { s with sync := .searching, phase := .mid, slot := 0, shreg := 0x00 }
      { s' with sync := .searching, phase := .mid, slot := 0, shreg := 0x00 } :=
    { h with sync := rfl, phase := rfl, slot := rfl, shreg := rfl }
  hsearch.reportErr c

theorem SameView.raise (h : SameView strobes n s s') (c : Cause) (hc : c.isDecoder = true) :
    SameView strobes n (raise c 0 s) (raise c 0 s') := by
  cases hy : s.sync
  case synced => rw [raise_synced c 0 s hc hy, raise_synced c 0 s' hc (h.sync.trans hy)]; exact h.resync c
  case searching =>
    by_cases hslip : c = .bitSlip ∨ c = .tsOrder
    · rw [raise_slip_searching c 0 s hslip hy, raise_slip_searching c 0 s' hslip (h.sync.trans hy)]
      exact h.clearRun.reportErr c
    · have hb : c ≠ .bitSlip := fun h => hslip (.inl h)
      have ht : c ≠ .tsOrder := fun h => hslip (.inr h)
      rw [raise_other_searching c 0 s hc hb ht hy, raise_other_searching c 0 s' hc hb ht (h.sync.trans hy)]
      exact h

theorem SameView.deliver (h : SameView strobes n s s') (b : Bool) :
    SameView strobes n (deliver b s) (deliver b s') := by
  simp only [Machine.deliver, h.slot]
  split_ifs
  · cases b
    case true => exact h.raise .framingStart rfl
    case false => exact { h with slot := rfl, shreg := rfl }
  · exact { h with slot := congrArg (· + 1) h.slot, shreg := by simp only [deliverData, h.shreg, h.slot] }
  · cases b
    case true =>
      exact { h with slot := rfl, rxBytes := by simp [deliverStop, emitByte, h.rxBytes, h.shreg]
                     pulses := fun hp => ⟨congrArg some h.shreg, (h.pulses hp).2⟩ }
    case false => exact h.raise .framingStop rfl

theorem SameView.searchFull (h : SameView strobes n s s') (d : Dir) :
    SameView strobes n (searchFull d s) (searchFull d s') := by
  have hlock : lockCond s' d = lockCond s d := by rw [lockCond, lockCond, h.cfg, h.run]
  simp only [Machine.searchFull, hlock]
  split
  · exact { h with sync := rfl, phase := rfl, slot := rfl, shreg := rfl, run := rfl }
  · exact h.clearRun

theorem SameView.syncHalf (h : SameView strobes n s s') (d : Dir) :
    SameView strobes n (syncHalf d s) (syncHalf d s') := by
  cases hp : s.phase
  case mid =>
    rw [syncHalf_mid d s hp, syncHalf_mid d s' (h.phase.trans hp)]
    exact h.countRun.setPhase .boundary
  case boundary =>
    rw [syncHalf_boundary d s hp, syncHalf_boundary d s' (h.phase.trans hp)]
    exact (h.countRun.setPhase .mid).deliver (bitval d)

theorem SameView.syncFull (h : SameView strobes n s s') (d : Dir) :
    SameView strobes n (syncFull d s) (syncFull d s') := by
  cases hp : s.phase
  case mid =>
    rw [syncFull_mid d s hp, syncFull_mid d s' (h.phase.trans hp)]
    exact h.clearRun.deliver (bitval d)
  case boundary =>
    rw [syncFull_raises d s hp, syncFull_raises d s' (h.phase.trans hp)]
    exact h.clearRun.raise .phaseViolation rfl

theorem SameView.tsBad (h : SameView strobes n s s') (ts : Nat) : tsBad s' (ts + n) = tsBad s ts := by
  simp [Machine.tsBad, h.lastTs]

theorem SameView.edgeClass (h : SameView strobes n s s') (ts : Nat) : edgeClass s' (ts + n) = edgeClass s ts := by
  simp only [Machine.edgeClass, h.tsBad, h.cfg, h.lastTs, Nat.add_sub_add_right]

theorem SameView.neitherCause (h : SameView strobes n s s') (ts : Nat) :
    neitherCause s' (ts + n) = neitherCause s ts := by simp [Machine.neitherCause, h.tsBad]

/-- The decoder reads of the core its own elements and the parameters, and of timestamps their differences. -/
theorem SameView.edgeEvent (h : SameView strobes n s s') (d : Dir) (ts : Nat) :
    SameView strobes n (edgeEvent d ts s) (edgeEvent d (ts + n) s') := by
  have hset : SameView strobes n (setLast ts s) (setLast (ts + n) s') := { h with lastTs := rfl }
  simp only [Machine.edgeEvent, h.haveLast, h.sync, h.edgeClass, h.neitherCause]
  split
  · split
    · exact hset.countRun
    · exact hset.searchFull d
    · exact hset.raise _ (neitherCause_isDecoder s ts)
    · exact hset.syncHalf d
    · exact hset.syncFull d
    · exact hset.clearRun.raise _ (neitherCause_isDecoder s ts)
  · exact { h with haveLast := rfl, lastTs := rfl, run := rfl }

end

theorem SameView.withDecoderOf_eq {n : Nat} {t t' : State} (h : SameView True n t t') (u : State) :
    withDecoderOf u t' = { withDecoderOf u t with lastTs := t.lastTs + n } := by
  obtain ⟨hemit, herr⟩ := h.pulses trivial
  simp only [withDecoderOf, h.sync, h.haveLast, h.lastTs, h.phase, h.run, h.slot, h.shreg, h.rxBytes, h.rxErrs, hemit,
    herr]

/-- `s` with every timestamp it holds later by `n`. -/
def shiftTime (n : Nat) (s : State) : State := { s with lastTs := s.lastTs + n }

theorem sameView_shiftTime (n : Nat) (s : State) : SameView True n s (shiftTime n s) :=
  ⟨rfl, rfl, rfl, rfl, rfl, rfl, rfl, rfl, rfl, rfl, fun _ => ⟨rfl, rfl⟩⟩

theorem edgeEvent_shiftTime (n : Nat) (d : Dir) (ts : Nat) (s : State) :
    edgeEvent d (ts + n) (shiftTime n s) = shiftTime n (edgeEvent d ts s) := by
  have hview := (sameView_shiftTime n s).edgeEvent d ts
  calc edgeEvent d (ts + n) (shiftTime n s)
      = withDecoderOf s (edgeEvent d (ts + n) (shiftTime n s)) := edgeEvent_frame d (ts + n) (shiftTime n s)
    _ = shiftTime n (withDecoderOf s (edgeEvent d ts s)) := hview.withDecoderOf_eq s
    _ = shiftTime n (edgeEvent d ts s) := by rw [← edgeEvent_frame]

theorem execAll_edge (e : Dir × Nat) (is : List Instr) (s : State) :
    execAll (edgeInstr e.1 e.2 :: is) s = execAll is (edgeEvent e.1 e.2 s) :=
  execAll_cons _ is s _ (exec_edgeInstr e.1 e.2 s)

/-- Settles O39: edge by edge, by induction on the list. -/
theorem uniformShiftChangesNothing : Obligations.UniformShiftChangesNothing := by
  intro n edges
  induction edges with
  | nil =>
    intro s t h
    obtain rfl := Host.Outcome.next.inj h
    rfl
  | cons e edges ih =>
    intro s t h
    rw [List.map_cons, execAll_edge] at h
    have hshift := edgeEvent_shiftTime n e.1 e.2 s
    rw [List.map_cons, execAll_edge (e.1, e.2 + n)]
    exact (congrArg (execAll _) hshift).trans (ih _ t h)

end Sys2Proof.Machine
end

section
/-! Everything an operation can do to the core, said once, and what follows of it for every operation but RESET (60_exceptions.md
section 5). -/

namespace Sys2Proof.Machine

/-! ### Everything a tick can do -/

/-- A tick sends a half-bit of a unit, the one in flight or the head of the queue, or it completes a close, or it is counted
alone. -/
inductive TickEffect (fail : Bool) (s : State) : State → Prop where
  | sends (u : TxUnit) (k : Nat) (q : List TxUnit) (hq : q = s.q ∨ s.q = u :: q) :
      TickEffect fail s { emitHalf u k fail { s with q := q, cur := u } with ticks := s.ticks + 1 }
  | completes (hmode : s.encMode = .closing) : TickEffect fail s { completeClose s with ticks := s.ticks + 1 }
  | idles : TickEffect fail s { s with ticks := s.ticks + 1 }

theorem tickEvent_effect (fail : Bool) (s : State) : TickEffect fail s (tickEvent fail s) := by
  obtain ⟨-, he⟩ | ⟨-, u, rest, hq, he⟩ | ⟨-, -, hmode, he⟩ | ⟨-, -, -, he⟩ := encoderStep_cases fail s <;>
    rw [tickEvent, he]
  · have hticks : (emitHalf s.cur s.pos fail s).ticks = s.ticks := by rw [emitHalf_closed]
    rw [hticks]
    exact .sends s.cur s.pos s.q (.inl rfl)
  · have hticks : (emitHalf u 0 fail (popUnit u rest s)).ticks = s.ticks := by rw [emitHalf_closed]; rfl
    rw [hticks]
    exact .sends u 0 rest (.inr hq)
  · exact .completes hmode
  · exact .idles

/-! ### Everything an operation can do -/

/-- What an operation of the decoder does: an edge, a delivered bit, a resynchronisation or a cause. -/
inductive DecoderEffect (s : State) : Instr → State → Prop where
  | edge (i : Instr) (d : Dir) (ts : Nat) (hi : i.format = .edge ∨ i.format = .decode) :
      DecoderEffect s i (edgeEvent d ts s)
  | deliver (i : Instr) (b : Bool) (hi : i.format = .decode) (hy : s.sync = .synced) (h9 : s.slot ≤ 9) :
      DecoderEffect s i (deliver b s)
  | resync (c : Cause) : DecoderEffect s (.resync c) (resync c s)
  | raise (i : Instr) (c : Cause) (hi : (i, c) ∈ decoderCauseRows) : DecoderEffect s i (raise c 0 s)

/-- Everything an operation that answers a next state can have done, with the condition under which it does it. -/
inductive Effect (s : State) : Instr → State → Prop where
  | unchanged (i : Instr) : Effect s i s
  | result (i : Instr) (r : FnResult) (hi : i.format ≠ .port) : Effect s i (setResult r s)
  | reset : Effect s .reset (doReset s)
  | clkstep (hrun : s.clkRun = true) : Effect s .clkstep (clockStep s)
  | tick (fail : Bool) (hdue : tickDue s = true) : Effect s (.tick fail) (tickEvent fail s)
  | grant (p : Nat) (hp : p < s.cfg.nprod) (h : canGrant s = true) : Effect s (.wgrant p) (grantEvent p s)
  | pre (h : canPre s = true) : Effect s .wpre (preEvent s)
  | byte (p : Nat) (b : Byte) (hp : p < s.cfg.nprod) (h : canByte p s = true) : Effect s (.wbyte p b) (byteEvent p b s)
  | ends (p : Nat) (hp : p < s.cfg.nprod) (h : canEnd p s = true) : Effect s (.wend p) (endEvent p s)
  | refuse (p : Nat) (hp : p < s.cfg.nprod) (h : canRefuse p s = true) : Effect s (.wrefuse p) (refuseEvent p s)
  | close (h : canClose s = true) : Effect s .close (closeEvent s)
  | push (u : TxUnit) (h : canPush u s = true) : Effect s (.qops (.qpush u)) (pushUnit u s)
  | pop (u : TxUnit) (rest : List TxUnit) (hq : s.q = u :: rest) :
      Effect s (.qops .qpop) (setResult (.unit u) { s with q := rest })
  | decoder (i : Instr) (t : State) (h : DecoderEffect s i t) : Effect s i t
  | driveFailure : Effect s .causePinDriveFailure (driveFailure s)
  | writeAfterClose (p : Nat) (hp : p < s.cfg.nprod) (hmode : s.encMode ≠ .run) :
      Effect s (.causeWriteAfterClose p) (raise .writeAfterClose p s)

/-- An event that takes place under its condition alone. -/
theorem Effect.of_ite {s e : State} {i : Instr} {c : Bool} (h : c = true → Effect s i e) :
    Effect s i (if c then e else s) := by
  split
  · exact h ‹_›
  · exact .unchanged i

theorem Effect.of_exec {s t e : State} {i : Instr} (h : exec i s = .next t) (he : exec i s = .next e)
    (heff : Effect s i e) : Effect s i t := by
  obtain rfl := Host.Outcome.next.inj (he.symm.trans h)
  exact heff

theorem next_of_onProducer {p : Nat} {s t u : State} (h : onProducer p s t = .next u) : p < s.cfg.nprod ∧ t = u := by
  unfold onProducer at h
  split at h
  · exact ⟨‹_›, Host.Outcome.next.inj h⟩
  · cases h

theorem exec_edgeRow_effect {y : Sync} {c : IvClass} (d : Dir) (ts : Nat) (s t : State)
    (hi : (edgeRow y c d ts).format = .decode) (h : exec (edgeRow y c d ts) s = .next t) :
    Effect s (edgeRow y c d ts) t := by
  by_cases hsel : selects y c ts s = true
  · exact .of_exec h (exec_edgeRow d ts s hsel) (.decoder _ _ (.edge _ d ts (.inr hi)))
  · exact .of_exec h (exec_edgeRow_unselected d ts s (mt (selects_iff y c ts s).mpr hsel)) (.unchanged _)

theorem exec_edgeFirst_effect (d : Dir) (ts : Nat) (s t : State) (h : exec (.edgeFirst d ts) s = .next t) :
    Effect s (.edgeFirst d ts) t := by
  obtain ⟨hseen, -⟩ := unselectedCaseChangesNothing d false ts s
  cases hl : s.haveLast
  case true => exact .of_exec h (hseen hl) (.unchanged _)
  case false =>
    have hfirst := firstEdgeRecordsTime d ts s hl
    have hsame := (hfirst (.edgeFirst d ts) (by simp)).trans (hfirst (edgeInstr d ts) (by simp)).symm
    rw [exec_edgeInstr] at hsame
    exact .of_exec h hsame (.decoder _ _ (.edge _ d ts (.inr rfl)))

theorem exec_edgeTsOrder_effect (d : Dir) (ts : Nat) (s t : State) (h : exec (.edgeTsOrder d ts) s = .next t) :
    Effect s (.edgeTsOrder d ts) t := by
  obtain ⟨-, hheld, -⟩ := unselectedCaseChangesNothing d false ts s
  by_cases hsel : s.haveLast = true ∧ ts < s.lastTs
  · exact .of_exec h (exec_edgeTsOrder d ts s hsel.1 hsel.2) (.decoder _ _ (.edge _ d ts (.inr rfl)))
  · exact .of_exec h (hheld (by grind)) (.unchanged _)

theorem exec_deliver_effect {i : Instr} (lo hi : Nat) (b : Bool) (s t e : State) (hf : i.format = .decode) (h9 : hi ≤ 9)
    (he : exec i s = .next (if delivers lo hi s then e else s))
    (hd : lo ≤ s.slot → s.slot ≤ hi → deliver b s = e) (h : exec i s = .next t) : Effect s i t := by
  refine .of_exec h he (.of_ite fun hsel => ?_)
  obtain ⟨hy, hlo, hhi⟩ := (delivers_iff lo hi s).mp hsel
  rw [← hd hlo hhi]
  exact .decoder _ _ (.deliver i b hf hy (hhi.trans h9))

theorem exec_qops_effect (op : QOp) (s t : State) (h : exec (.qops op) s = .next t) : Effect s (.qops op) t := by
  cases op with
  | qlen => cases h; exact .result _ _ nofun
  | qpush u => cases h; exact .of_ite (.push u)
  | qpop =>
    cases hq : s.q with
    | nil => exact .of_exec h (by simp [exec, execQops, hq]) (.unchanged _)
    | cons u rest => exact .of_exec h (by simp [exec, execQops, hq]) (.pop u rest hq)

/-- The operations of the machine, row by row. -/
theorem exec_effect (i : Instr) (s t : State) (h : exec i s = .next t) : Effect s i t := by
  cases i
  case reset => cases h; exact .reset
  case clkstep => cases h; exact .of_ite .clkstep
  case tick fail => cases h; exact .of_ite (.tick fail)
  case wopen p => obtain ⟨hp, rfl⟩ := next_of_onProducer h; exact .unchanged _
  case wgrant p => obtain ⟨hp, rfl⟩ := next_of_onProducer h; exact .of_ite (.grant p hp)
  case wpre => cases h; exact .of_ite .pre
  case wbyte p b => obtain ⟨hp, rfl⟩ := next_of_onProducer h; exact .of_ite (.byte p b hp)
  case wend p => obtain ⟨hp, rfl⟩ := next_of_onProducer h; exact .of_ite (.ends p hp)
  case wrefuse p => obtain ⟨hp, rfl⟩ := next_of_onProducer h; exact .of_ite (.refuse p hp)
  case close => cases h; exact .of_ite .close
  case edgeR ts => cases h; exact .decoder _ _ (.edge _ .rising ts (.inl rfl))
  case edgeF ts => cases h; exact .decoder _ _ (.edge _ .falling ts (.inl rfl))
  case edgeFirst d ts => exact exec_edgeFirst_effect d ts s t h
  case edgeTsOrder d ts => exact exec_edgeTsOrder_effect d ts s t h
  case edgeSHalf d ts => exact exec_edgeRow_effect (y := .searching) (c := .halfIv) d ts s t rfl h
  case edgeSFull d ts => exact exec_edgeRow_effect (y := .searching) (c := .fullIv) d ts s t rfl h
  case edgeSNeither d ts => exact exec_edgeRow_effect (y := .searching) (c := .neither) d ts s t rfl h
  case edgeYHalf d ts => exact exec_edgeRow_effect (y := .synced) (c := .halfIv) d ts s t rfl h
  case edgeYFull d ts => exact exec_edgeRow_effect (y := .synced) (c := .fullIv) d ts s t rfl h
  case edgeYNeither d ts => exact exec_edgeRow_effect (y := .synced) (c := .neither) d ts s t rfl h
  case deliverStart b =>
    exact exec_deliver_effect 0 0 b s t _ rfl (by decide) rfl (fun _ h0 => if_pos (by omega)) h
  case deliverData b =>
    exact exec_deliver_effect 1 8 b s t _ rfl (by decide) rfl (fun h1 h8 => (if_neg (by omega)).trans (if_pos h8)) h
  case deliverStop b =>
    exact exec_deliver_effect 9 9 b s t _ rfl (by decide) rfl
      (fun h9 _ => (if_neg (by omega)).trans (if_neg (by omega))) h
  case resync c => cases h; exact .decoder _ _ (.resync c)
  case qops op => exact exec_qops_effect op s t h
  case causePinDriveFailure => cases h; exact .driveFailure
  case causeWriteAfterClose p =>
    obtain ⟨hp, rfl⟩ := next_of_onProducer h
    exact .of_ite fun hmode => .writeAfterClose p hp (bne_iff_ne.mp hmode)
  case causeCloseReleaseFailure => cases h; exact .unchanged _
  case causeBitSlip | causeFramingStart | causeFramingStop | causePhaseViolation | causeTsOrder =>
    cases h; exact .decoder _ _ (.raise _ _ (by simp [decoderCauseRows]))
  all_goals cases h; exact .result _ _ nofun

/-! ### What the decoder's operations leave alone -/

theorem isDecoder_of_mem_rows {i : Instr} {c : Cause} (h : (i, c) ∈ decoderCauseRows) :
    c.isDecoder = true ∧ i.format = .cause := by
  simp only [decoderCauseRows, List.mem_cons, Prod.mk.injEq, List.not_mem_nil, or_false] at h
  obtain ⟨rfl, rfl⟩ | ⟨rfl, rfl⟩ | ⟨rfl, rfl⟩ | ⟨rfl, rfl⟩ | ⟨rfl, rfl⟩ := h <;> exact ⟨rfl, rfl⟩

theorem DecoderEffect.frame {s t : State} {i : Instr} (h : DecoderEffect s i t) : t = withDecoderOf s t := by
  cases h with
  | edge i d ts hi => exact edgeEvent_frame d ts s
  | deliver i b hi hy h9 => exact deliver_frame b s
  | resync c => rfl
  | raise i c hi => exact raise_decoder_frame c s (isDecoder_of_mem_rows hi).1

theorem DecoderEffect.not_port {s t : State} {i : Instr} (h : DecoderEffect s i t) : i.format ≠ .port := by
  cases h with
  | edge i d ts hi => obtain hi | hi := hi <;> simp [hi]
  | deliver i b hi hy h9 => simp [hi]
  | resync c => nofun
  | raise i c hi => simp [(isDecoder_of_mem_rows hi).2]

/-! ### The mode -/

theorem TickEffect.modeRank_le {fail : Bool} {s t : State} (h : TickEffect fail s t) :
    modeRank s.encMode ≤ modeRank t.encMode := by
  cases h with
  | sends u k q hq => simp [emitHalf_closed]
  | completes hmode => simp [hmode, completeClose, modeRank]
  | idles => exact le_rfl

theorem raise_writeAfterClose_encMode (p : Nat) (s : State) : (raise .writeAfterClose p s).encMode = s.encMode :=
  (refuseEvent_encoderSame p s).encMode

/-- Settles O42: only a close and its completion write the mode, each forward. -/
theorem modeOnlyMovesForward : Obligations.ModeOnlyMovesForward := by
  intro i s t hi h
  cases exec_effect i s t h with
  | reset => exact absurd rfl hi
  | tick fail hdue => exact (tickEvent_effect fail s).modeRank_le
  | close hrun => simp [(canClose_iff s).mp hrun, modeRank]
  | refuse p hp hcan => exact (congrArg modeRank (raise_writeAfterClose_encMode p s)).ge
  | writeAfterClose p hp hmode => exact (congrArg modeRank (raise_writeAfterClose_encMode p s)).ge
  | decoder i t hd => rw [hd.frame]; exact le_rfl
  | _ => exact le_rfl

/-! ### What only RESET undoes -/

/-- Nothing that only RESET undoes is undone from `s` to `t`. -/
structure Grows (s t : State) : Prop where
  closeDone    : s.closeDone = true → t.closeDone = true
  drvErrSticky : s.drvErrSticky = true → t.drvErrSticky = true
  haveLast     : s.haveLast = true → t.haveLast = true
  clkRun       : s.clkRun = false → t.clkRun = false
  txLog        : ∃ l, t.txLog = s.txLog ++ l
  rxBytes      : ∃ l, t.rxBytes = s.rxBytes ++ l
  rxErrs       : ∃ l, t.rxErrs = s.rxErrs ++ l

theorem Grows.refl (s : State) : Grows s s :=
  ⟨id, id, id, id, ⟨[], by simp⟩, ⟨[], by simp⟩, ⟨[], by simp⟩⟩

theorem TickEffect.grows {fail : Bool} {s t : State} (h : TickEffect fail s t) : Grows s t := by
  cases h with
  | sends u k q hq =>
    rw [emitHalf_closed]
    exact { Grows.refl s with
            drvErrSticky := fun hs => by simp [hs]
            txLog := ⟨[halflevel u k], rfl⟩ }
  | completes hmode => exact { Grows.refl s with closeDone := fun _ => rfl, clkRun := fun _ => rfl }
  | idles => exact { Grows.refl s with }

theorem raise_writeAfterClose_grows (p : Nat) (s : State) : Grows s (raise .writeAfterClose p s) := by
  by_cases howner : s.owner = some p
  · rw [raise_writeAfterClose_owner p s howner]; exact { Grows.refl s with }
  · rw [raise_writeAfterClose_other p s howner]; exact { Grows.refl s with }

theorem DecoderOutput.extends {s t : State} (h : DecoderOutput s t) :
    (∃ l, t.rxBytes = s.rxBytes ++ l) ∧ ∃ l, t.rxErrs = s.rxErrs ++ l := by
  cases h with
  | emits v bytes emit errs err before after => exact ⟨⟨[v], bytes⟩, [], by simp [errs]⟩
  | reports c errs err decoder bytes emit after => exact ⟨⟨[], by simp [bytes]⟩, [c], errs⟩
  | silent bytes emit errs err => exact ⟨⟨[], by simp [bytes]⟩, [], by simp [errs]⟩

theorem DecoderEffect.extends {s t : State} {i : Instr} (h : DecoderEffect s i t) :
    (∃ l, t.rxBytes = s.rxBytes ++ l) ∧ ∃ l, t.rxErrs = s.rxErrs ++ l := by
  cases h with
  | edge i d ts hi => exact (edgeEvent_output d ts s).extends
  | deliver i b hi hy h9 => exact (deliver_output b s hy).extends
  | resync c => exact ⟨⟨[], by simp [resync_eq]⟩, [c], rfl⟩
  | raise i c hi => exact (raise_output c s (isDecoder_of_mem_rows hi).1).extends

theorem raise_haveLast (c : Cause) (s : State) (hc : c.isDecoder = true) : (raise c 0 s).haveLast = s.haveLast := by
  cases hy : s.sync <;> cases c <;> simp_all [raise, Cause.isDecoder, resync_eq, slipSearching_eq]

theorem DecoderEffect.haveLast {s t : State} {i : Instr} (h : DecoderEffect s i t) (hl : s.haveLast = true) :
    t.haveLast = true := by
  cases h with
  | edge i d ts hi => exact (edgeEvent_referenceAt d ts s).1
  | deliver i b hi hy h9 => exact (deliver_referenceAt b s.lastTs s hy ⟨hl, rfl⟩).1
  | resync c => exact hl
  | raise i c hi => exact (raise_haveLast c s (isDecoder_of_mem_rows hi).1).trans hl

theorem DecoderEffect.grows {s t : State} {i : Instr} (h : DecoderEffect s i t) : Grows s t := by
  obtain ⟨hbytes, herrs⟩ := h.extends
  have hlast := h.haveLast
  rw [h.frame] at hbytes herrs hlast ⊢
  exact { Grows.refl s with haveLast := hlast, rxBytes := hbytes, rxErrs := herrs }

/-- Settles O43: each effect but that of RESET keeps what `Grows` names. -/
theorem onlyResetUndoes : Obligations.OnlyResetUndoes := by
  intro i s t hi h
  have hgrows : Grows s t := by
    cases exec_effect i s t h with
    | reset => exact absurd rfl hi
    | tick fail hdue => exact (tickEvent_effect fail s).grows
    | close hrun => rw [closeEvent_eq]; exact { Grows.refl s with }
    | refuse p hp hcan => exact raise_writeAfterClose_grows p s
    | writeAfterClose p hp hmode => exact raise_writeAfterClose_grows p s
    | decoder i t hd => exact hd.grows
    | driveFailure => exact { Grows.refl s with drvErrSticky := fun _ => rfl }
    | _ => exact { Grows.refl s with }
  obtain ⟨hdone, hsticky, hlast, hclk, htx, hbytes, herrs⟩ := hgrows
  exact ⟨hdone, hsticky, hlast, hclk, htx, hbytes, herrs⟩

/-! ### The pin -/

theorem TickEffect.pin {fail : Bool} {s t : State} (h : TickEffect fail s t) :
    (t.tx = s.tx ∧ t.txLog = s.txLog) ∨ t.txLog = s.txLog ++ [t.tx] := by
  cases h with
  | sends u k q hq => rw [emitHalf_closed]; exact .inr rfl
  | completes hmode => exact .inl ⟨rfl, rfl⟩
  | idles => exact .inl ⟨rfl, rfl⟩

theorem raise_writeAfterClose_pin (p : Nat) (s : State) :
    (raise .writeAfterClose p s).tx = s.tx ∧ (raise .writeAfterClose p s).txLog = s.txLog := by
  refine ⟨?_, (refuseEvent_encoderSame p s).txLog⟩
  by_cases howner : s.owner = some p
  · rw [raise_writeAfterClose_owner p s howner]; rfl
  · rw [raise_writeAfterClose_other p s howner]; rfl

/-- Settles O44: among the effects only a half-bit's writes the pin. -/
theorem onlyTickDrivesPin : Obligations.OnlyTickDrivesPin := by
  intro i s t hi h
  cases exec_effect i s t h with
  | reset => exact absurd rfl hi
  | tick fail hdue => exact (tickEvent_effect fail s).pin.imp_right fun hlog => ⟨fail, rfl, hlog⟩
  | close hrun => rw [closeEvent_eq]; exact .inl ⟨rfl, rfl⟩
  | refuse p hp hcan => exact .inl (raise_writeAfterClose_pin p s)
  | writeAfterClose p hp hmode => exact .inl (raise_writeAfterClose_pin p s)
  | decoder i t hd => rw [hd.frame]; exact .inl ⟨rfl, rfl⟩
  | _ => exact .inl ⟨rfl, rfl⟩

/-! ### The queue -/

theorem TickEffect.queue {fail : Bool} {s t : State} (h : TickEffect fail s t) :
    t.q = s.q ∨ ∃ u, s.q = u :: t.q := by
  cases h with
  | sends u k q hq => rw [emitHalf_closed]; exact hq.imp id fun hq => ⟨u, hq⟩
  | completes hmode => exact .inl rfl
  | idles => exact .inl rfl

/-- Settles O45: the pushing effects stand under `RUN` and room, and only a tick and QPop take, the head. -/
theorem queueIsFifoAndClosed : Obligations.QueueIsFifoAndClosed := by
  intro i s t hi h
  cases exec_effect i s t h with
  | reset => exact absurd rfl hi
  | tick fail hdue => exact (tickEvent_effect fail s).queue.imp_right .inl
  | pre hcan =>
    obtain ⟨hrun, -, -, hroom⟩ := (canPre_iff s).mp hcan
    exact .inr (.inr ⟨hrun, hroom, TxUnit.preamble, rfl⟩)
  | byte p b hp hcan =>
    obtain ⟨hrun, -, -, hroom⟩ := (canByte_iff p s).mp hcan
    exact .inr (.inr ⟨hrun, hroom, TxUnit.frame b, rfl⟩)
  | push u hcan =>
    obtain ⟨hrun, -, hroom⟩ := (canPush_iff u s).mp hcan
    exact .inr (.inr ⟨hrun, hroom, u, rfl⟩)
  | pop u rest hq => exact .inr (.inl ⟨u, hq⟩)
  | close hrun => rw [closeEvent_eq]; exact .inl rfl
  | refuse p hp hcan => exact .inl (refuseEvent_encoderSame p s).q
  | writeAfterClose p hp hmode => exact .inl (refuseEvent_encoderSame p s).q
  | decoder i t hd => rw [hd.frame]; exact .inl rfl
  | _ => exact .inl rfl

/-! ### The owner of a burst -/

/-- Settles O46: under the invariant a burst is open in `RUN` only, where no cut but the close's can end it. -/
theorem burstKeepsItsOwner : Obligations.BurstKeepsItsOwner := by
  intro i p s t hinv howner h
  obtain ⟨hport, hrun⟩ := hinv.owner_port p howner
  cases exec_effect i s t h with
  | unchanged => exact ⟨.inl howner, fun _ _ _ _ => rfl⟩
  | result i r hi => exact ⟨.inl howner, fun p' b hb => absurd rfl (hb ▸ hi)⟩
  | reset => exact ⟨.inr ⟨rfl, .inr (.inr rfl)⟩, nofun⟩
  | tick fail hdue => exact ⟨.inl ((tickEvent_frame fail s).owner.trans howner), nofun⟩
  | grant p' hp' hcan => exact absurd ((canGrant_iff s).mp hcan).2 (by simp [howner])
  | byte p' b hp' hcan =>
    obtain ⟨-, howner', -, -⟩ := (canByte_iff p' s).mp hcan
    have hsame : p' = p := Option.some.inj (howner'.symm.trans howner)
    refine ⟨.inl howner, fun p'' b' hb hne => ?_⟩
    obtain ⟨rfl, -⟩ := Instr.wbyte.inj hb
    exact absurd hsame hne
  | ends p' hp' hcan =>
    obtain ⟨-, howner', -⟩ := (canEnd_iff p' s).mp hcan
    have hsame : p' = p := Option.some.inj (howner'.symm.trans howner)
    exact ⟨.inr ⟨rfl, .inl (by rw [hsame])⟩, nofun⟩
  | close hcan => rw [closeEvent_eq]; exact ⟨.inr ⟨rfl, .inr (.inl rfl)⟩, nofun⟩
  | refuse p' hp' hcan => exact absurd hrun ((canRefuse_iff p' s).mp hcan).1
  | writeAfterClose p' hp' hmode => exact absurd hrun hmode
  | decoder i t hd =>
    refine ⟨.inl ?_, fun p' b hb => absurd rfl (hb ▸ hd.not_port)⟩
    rw [hd.frame]; exact howner
  | _ => exact ⟨.inl howner, nofun⟩

/-! ### A producer's count and error bit -/

theorem getD_set_ne {α : Type} (l : List α) (x d : α) {p q : Nat} (h : p ≠ q) : (l.set p x).getD q d = l.getD q d := by
  simp [List.getD_eq_getElem?_getD, List.getElem?_set_ne h]

theorem getD_set_true (l : List Bool) (p q : Nat) (h : l.getD q false = true) : (l.set p true).getD q false = true := by
  by_cases hpq : p = q
  · subst hpq
    by_cases hp : p < l.length
    · simp [hp]
    · rwa [List.set_eq_of_length_le (Nat.not_lt.mp hp)]
  · rwa [getD_set_ne l true false hpq]

/-- What O47 says of one operation: it clears the error bit of `p` as a grant to `p` only, and as no event of a call of `p` it leaves
both results of `p`. -/
structure ResultsKept (i : Instr) (p : Nat) (s t : State) : Prop where
  err   : s.wrErr.getD p false = true → t.wrErr.getD p false = true ∨ i = .wgrant p
  other : (∀ b, i ∉ [.wgrant p, .wbyte p b, .wrefuse p, .causeWriteAfterClose p]) → (i = .close → s.owner ≠ some p) →
    t.wrCount.getD p 0 = s.wrCount.getD p 0 ∧ t.wrErr.getD p false = s.wrErr.getD p false

theorem ResultsKept.of_same {i : Instr} {p : Nat} {s t : State} (hcount : t.wrCount = s.wrCount)
    (herr : t.wrErr = s.wrErr) : ResultsKept i p s t :=
  ⟨fun h => .inl (herr ▸ h), fun _ _ => ⟨by rw [hcount], by rw [herr]⟩⟩

/-- An event of the producer `q` that sets its error bit, if it writes it, and writes no count but that of `q`. -/
theorem ResultsKept.of_own {i : Instr} {p q : Nat} {s t : State} (n : Nat)
    (hi : i ∈ [.wrefuse q, .causeWriteAfterClose q]) (herr : t.wrErr = s.wrErr.set q true)
    (hcount : t.wrCount = s.wrCount.set q n ∨ t.wrCount = s.wrCount) : ResultsKept i p s t := by
  refine ⟨fun h => .inl (herr ▸ getD_set_true s.wrErr q p h), fun hnot _ => ?_⟩
  have hqp : q ≠ p := by rintro rfl; exact hnot 0 (by simp at hi ⊢; tauto)
  refine ⟨?_, by rw [herr, getD_set_ne _ _ _ hqp]⟩
  obtain hcount | hcount := hcount
  · rw [hcount, getD_set_ne _ _ _ hqp]
  · rw [hcount]

theorem raise_writeAfterClose_results {i : Instr} (p q : Nat) (s : State)
    (hi : i ∈ [.wrefuse q, .causeWriteAfterClose q]) : ResultsKept i p s (raise .writeAfterClose q s) := by
  by_cases howner : s.owner = some q
  · rw [raise_writeAfterClose_owner q s howner]; exact .of_own 0 hi rfl (.inr rfl)
  · rw [raise_writeAfterClose_other q s howner]; exact .of_own 0 hi rfl (.inl rfl)

theorem closeEvent_results (p : Nat) (s : State) : ResultsKept .close p s (closeEvent s) := by
  rw [closeEvent_eq]
  cases howner : s.owner with
  | none => exact .of_same rfl rfl
  | some q =>
    refine ⟨fun h => .inl (getD_set_true s.wrErr q p h), fun _ hcut => ⟨rfl, ?_⟩⟩
    have hqp : q ≠ p := fun hqp => hcut rfl (howner.trans (congrArg some hqp))
    exact getD_set_ne s.wrErr true false hqp

theorem grantEvent_results (p q : Nat) (s : State) : ResultsKept (.wgrant q) p s (grantEvent q s) := by
  by_cases hqp : q = p
  · exact ⟨fun _ => .inr (by rw [hqp]), fun hnot _ => absurd (by simp [hqp]) (hnot 0)⟩
  · have herr : (s.wrErr.set q false).getD p false = s.wrErr.getD p false := getD_set_ne s.wrErr false false hqp
    exact ⟨fun h => .inl (herr.trans h), fun _ _ => ⟨getD_set_ne s.wrCount 0 0 hqp, herr⟩⟩

theorem byteEvent_results (p q : Nat) (b : Byte) (s : State) : ResultsKept (.wbyte q b) p s (byteEvent q b s) := by
  refine ⟨.inl, fun hnot _ => ⟨?_, rfl⟩⟩
  have hqp : q ≠ p := by rintro rfl; exact hnot b (by simp)
  exact getD_set_ne s.wrCount _ 0 hqp

/-- Settles O47: the effects that write a count or an error bit, one by one. -/
theorem errorBitClearedByGrantOnly : Obligations.ErrorBitClearedByGrantOnly := by
  intro i p s t hi h
  have hkept : ResultsKept i p s t := by
    cases exec_effect i s t h with
    | reset => exact absurd rfl hi
    | tick fail hdue =>
      have hframe := tickEvent_frame fail s
      exact .of_same hframe.count hframe.err
    | grant q hq hcan => exact grantEvent_results p q s
    | byte q b hq hcan => exact byteEvent_results p q b s
    | close hcan => exact closeEvent_results p s
    | refuse q hq hcan => exact raise_writeAfterClose_results p q s (by simp)
    | writeAfterClose q hq hmode => exact raise_writeAfterClose_results p q s (by simp)
    | decoder i t hd => rw [hd.frame]; exact .of_same rfl rfl
    | _ => exact .of_same rfl rfl
  exact ⟨hkept.err, hkept.other⟩

end Sys2Proof.Machine
end

section
/-! The step, and the invariant along it (00_scope.md section 4, 10_state.md). -/

namespace Sys2Proof.Machine

/-! ### What drives a step -/

theorem step_of_sane (s : State) (h : s.cfg.sane = true) :
    step s = runStimulus (nextStimulus s).1 (beginStep (nextStimulus s).2 s) := if_pos h

theorem step_cons (s : State) (x : Stimulus) (rest : List Stimulus) (h : s.cfg.sane = true) (hstim : s.stim = x :: rest) :
    step s = runStimulus x (beginStep rest s) := by rw [step_of_sane s h, nextStimulus, hstim]

theorem step_nil (s : State) (h : s.cfg.sane = true) (hstim : s.stim = []) :
    step s = runStimulus (.ports PortIn.quiet) (beginStep [] s) := by rw [step_of_sane s h, nextStimulus, hstim]

theorem runStimulus_ok (w : OpWord) (i : Instr) (s : State) (h : decode w = .ok i) :
    runStimulus (.word w) s = exec i s := by rw [runStimulus, h]

theorem runStimulus_error (w : OpWord) (e : DecodeError) (s : State) (h : decode w = .error e) :
    runStimulus (.word w) s = .refused (.undecodable e) := by rw [runStimulus, h]

/-- Settles O4: `step_cons` and the meaning of the decoded word. -/
theorem stepRunsDecodedWord : Obligations.StepRunsDecodedWord := by
  intro s w rest i hsane hstim hdec
  rw [step_cons s _ rest hsane hstim, runStimulus_ok w i _ hdec, beginStep]

theorem not_sane_iff (c : Params) : c.sane = false ↔ c.half = 0 ∨ c.qdepth = 0 ∨ c.nprod = 0 := by
  simp [Params.sane]
  omega

/-- Settles O5: the step by its stimulus, and the two stops. -/
theorem stepRunsCycleOrStops : Obligations.StepRunsCycleOrStops := by
  intro s inp w rest e
  refine ⟨fun hsane hstim => ?ports, fun hsane hstim hrest => ?quiet, fun hsane hstim hdec => ?undecodable,
    fun hzero => ?illegal⟩
  case ports => rw [step_cons s _ rest hsane hstim]; rfl
  case quiet => rw [step_nil s hsane hstim, hrest]; rfl
  case undecodable => rw [step_cons s _ rest hsane hstim, runStimulus_error w e _ hdec]
  case illegal => exact if_neg (Bool.eq_false_iff.mp ((not_sane_iff s.cfg).mpr hzero))

/-! ### The invariant at reset -/

theorem sane_iff (c : Params) : c.sane = true ↔ 1 ≤ c.half ∧ 1 ≤ c.qdepth ∧ 1 ≤ c.nprod := by simp [Params.sane]

theorem resetWith_inv (c : Params) (h : c.sane = true) : CoreInv (State.resetWith c) where
  sane := h
  div_bound := ((sane_iff c).mp h).1
  queue_bound := Nat.zero_le _
  queue_units := nofun
  owner_port := nofun
  pre_bound := Nat.zero_le _
  pre_owner := fun _ => rfl
  count_ports := List.length_replicate
  err_ports := List.length_replicate
  done_ports := List.length_replicate
  err_closed := fun p hp => by simp [State.resetWith, List.getElem?_replicate] at hp; split at hp <;> simp at hp
  done_stopped := by simp [State.resetWith]
  clock_stopped := by simp [State.resetWith]
  drained_stopped := nofun
  unit_in_flight := nofun
  idle_line := fun _ => ⟨rfl, rfl⟩
  searching_clear := fun _ => ⟨rfl, rfl, rfl⟩
  slot_bound := Nat.zero_le _
  before_edge := fun _ => ⟨rfl, rfl⟩
  run_bound := fun _ _ => Nat.zero_le _
  errs_decoder := nofun

/-- Settles O7: every sane configuration, and the one `State.reset` carries. -/
theorem resetMeetsInvariant : Obligations.ResetMeetsInvariant :=
  ⟨resetWith_inv, resetWith_inv Params.s9 (by decide)⟩

/-! ### The invariant along an operation -/

theorem doReset_inv (s : State) (h : CoreInv s) : CoreInv (doReset s) := { resetWith_inv s.cfg h.sane with }

theorem CoreInv.owner_none_of_not_run {s : State} (h : CoreInv s) (hmode : s.encMode ≠ .run) : s.owner = none := by
  by_contra hsome
  obtain ⟨p, hp⟩ := Option.ne_none_iff_exists'.mp hsome
  exact hmode (h.owner_port p hp).2

theorem popRow_inv (u : TxUnit) (rest : List TxUnit) (s : State) (h : CoreInv s) (hq : s.q = u :: rest) :
    CoreInv { s with q := rest } :=
  { h with
    queue_bound := by have hb := h.queue_bound; rw [hq, List.length_cons] at hb; exact (Nat.le_succ _).trans hb
    queue_units := fun v hv => h.queue_units v (hq ▸ List.mem_cons_of_mem u hv)
    drained_stopped := fun hm => absurd (hq.symm.trans (h.drained_stopped hm).1) nofun }

theorem DecoderEffect.inv {s t : State} {i : Instr} (he : DecoderEffect s i t) (hwf : i.wellFormed = true)
    (h : CoreInv s) : CoreInv t := by
  cases he with
  | edge i d ts hi => exact edgeEvent_inv d ts s h
  | deliver i b hi hy h9 => exact deliver_inv b s h hy
  | resync c => exact resync_inv c s h hwf
  | raise i c hi => exact raise_decoder_inv c 0 s h (isDecoder_of_mem_rows hi).1

theorem Effect.inv {s t : State} {i : Instr} (he : Effect s i t) (hwf : i.wellFormed = true) (h : CoreInv s) :
    CoreInv t := by
  cases he with
  | unchanged i => exact h
  | result i r hi => exact setResult_inv r s h
  | reset => exact doReset_inv s h
  | clkstep hrun => exact clockStep_inv s h
  | tick fail hdue => exact tickEvent_inv fail s h ((tickDue_iff s).mp hdue).1
  | grant p hp hcan => exact grantEvent_inv p s h hp hcan
  | pre hcan => exact preEvent_inv s h hcan
  | byte p b hp hcan => exact byteEvent_inv p b s h hcan
  | ends p hp hcan => exact endEvent_inv p s h hcan
  | refuse p hp hcan => exact refuseEvent_inv p s h hcan
  | close hcan => exact closeEvent_inv s h hcan
  | push u hcan =>
    obtain ⟨hrun, hu, hroom⟩ := (canPush_iff u s).mp hcan
    exact pushUnit_inv u s h hu hroom hrun
  | pop u rest hq => exact setResult_inv _ _ (popRow_inv u rest s h hq)
  | decoder i t hd => exact hd.inv hwf h
  | driveFailure => exact driveFailure_inv s h
  | writeAfterClose p hp hmode =>
    have hcan : canRefuse p s = true := (canRefuse_iff p s).mpr ⟨hmode, by simp [h.owner_none_of_not_run hmode]⟩
    exact refuseEvent_inv p s h hcan

theorem exec_inv (i : Instr) (s t : State) (hwf : i.wellFormed = true) (h : CoreInv s) (he : exec i s = .next t) :
    CoreInv t := (exec_effect i s t he).inv hwf h

theorem execAll_inv (l : List Instr) (s t : State) (hwf : ∀ i ∈ l, i.wellFormed = true) (h : CoreInv s)
    (he : execAll l s = .next t) : CoreInv t := by
  induction l generalizing s with
  | nil => exact Host.Outcome.next.inj he ▸ h
  | cons i l ih =>
    rw [execAll] at he
    cases hi : exec i s with
    | next u =>
      rw [hi] at he
      exact ih u (fun j hj => hwf j (List.mem_cons_of_mem i hj)) (exec_inv i s u (hwf i List.mem_cons_self) h hi) he
    | fault r => simp [hi] at he
    | refused r => simp [hi] at he

end Sys2Proof.Machine
end

section
/-! A cycle as a schedule of the event-level machine: each of its events takes place where the one before it left the core
(60_exceptions.md R250, 30_encoding.md R105). -/

namespace Sys2Proof.Machine

/-! ### Schedules -/

/-- Run one after the other by their own meanings, the events write what `applyEvent` writes: the condition of each holds in its
turn. -/
def Runs (l : List Instr) (s : State) : Prop := execAll l s = .next (l.foldl applyEvent s)

theorem runs_nil (s : State) : Runs [] s := rfl

theorem runs_singleton (i : Instr) (s : State) (h : exec i s = .next (applyEvent s i)) : Runs [i] s :=
  execAll_cons i [] s _ h

theorem Runs.append {l m : List Instr} {s : State} (hl : Runs l s) (hm : Runs m (l.foldl applyEvent s)) :
    Runs (l ++ m) s := by
  rw [Runs, execAll_append l m s _ hl, hm, List.foldl_append]

/-! ### The stages of a cycle -/

/-- The state after the tick of the cycle, if one is due. -/
def afterTick (inp : PortIn) (s : State) : State := if tickDue s then tickEvent inp.drvErr s else s

/-- The state `t` after what the closer and the arbiter decide on the state `s` at the start of the cycle. -/
def afterDecision (inp : PortIn) (s t : State) : State :=
  (arbiterEvent inp s).toList.foldl applyEvent (if closing inp s then closeEvent t else t)

/-- The state `u` after the refusals of the cycle that starts in `s`. -/
def afterRefusals (inp : PortIn) (s u : State) : State :=
  ((refusedProducers inp s).map Instr.wrefuse).foldl applyEvent u

/-- The state `v` after the edge of the cycle, if one is sampled. -/
def afterEdge (inp : PortIn) (v : State) : State :=
  if inp.edgeValid then edgeEvent (Dir.ofBit inp.edgeDir) inp.edgeTs v else v

/-- The state after the events of the cycle that the transmit side has. -/
def afterTransmit (inp : PortIn) (s : State) : State :=
  afterRefusals inp s (afterDecision inp s (afterTick inp s))

/-- The tick of the cycle, if one is due. -/
def tickEvents (inp : PortIn) (s : State) : List Instr := if tickDue s then [.tick inp.drvErr] else []

/-- The close of the cycle, if one is accepted. -/
def closeEvents (inp : PortIn) (s : State) : List Instr := if closing inp s then [.close] else []

theorem sampledEvents_eq (inp : PortIn) (s : State) : sampledEvents inp s =
    tickEvents inp s ++ closeEvents inp s ++ (arbiterEvent inp s).toList ++ (refusedProducers inp s).map .wrefuse ++
      (edgeInput inp).toList := rfl

theorem foldl_tickEvents (inp : PortIn) (s : State) : (tickEvents inp s).foldl applyEvent s = afterTick inp s := by
  unfold tickEvents afterTick; split <;> rfl

theorem foldl_closeEvents (inp : PortIn) (s t : State) :
    (closeEvents inp s).foldl applyEvent t = if closing inp s then closeEvent t else t := by
  unfold closeEvents; split <;> rfl

theorem foldl_edgeInput (inp : PortIn) (v : State) : (edgeInput inp).toList.foldl applyEvent v = afterEdge inp v := by
  unfold edgeInput afterEdge
  split
  · cases Dir.ofBit inp.edgeDir <;> rfl
  · rfl

/-- The sampled events, stage by stage. -/
theorem foldl_sampledEvents (inp : PortIn) (s : State) :
    (sampledEvents inp s).foldl applyEvent s = afterEdge inp (afterTransmit inp s) := by
  simp only [sampledEvents_eq, List.foldl_append, foldl_tickEvents, foldl_closeEvents, foldl_edgeInput]
  rfl

/-- The state `t` with the divider and the cycle number as they are after the cycle that starts in `s` (40_clock.md R121). -/
def endCycle (s t : State) : State :=
  { t with div := if s.clkRun then (if s.div = s.cfg.half - 1 then 0 else s.div + 1) else s.div, cycle := s.cycle + 1 }

/-- A cycle without `rst`, stage by stage. -/
theorem clkCycle_stages (inp : PortIn) (s : State) (hr : inp.rst = false) :
    clkCycle inp s = endCycle s (afterEdge inp (afterTransmit inp s)) := by
  rw [clkCycle_eq inp s hr, foldl_sampledEvents, endCycle]

/-! ### Each stage takes place -/

theorem TickFrame.refl (s : State) : TickFrame s s := ⟨rfl, rfl, rfl, Iff.rfl, ⟨[], rfl⟩, rfl, rfl⟩

theorem afterTick_frame (inp : PortIn) (s : State) : TickFrame s (afterTick inp s) := by
  unfold afterTick
  split
  · exact tickEvent_frame inp.drvErr s
  · exact TickFrame.refl s

theorem TickFrame.length_le {s t : State} (h : TickFrame s t) : t.q.length ≤ s.q.length := by
  obtain ⟨l, hl⟩ := h.queue
  rw [← hl, List.length_append]
  exact Nat.le_add_left _ _

/-- A tick holds back no event of the arbiter: it keeps what their conditions read, but for room, which it can only make. -/
theorem TickFrame.arbiterEvent_takes {inp : PortIn} {s t : State} {i : Instr} (h : TickFrame s t) (hinv : CoreInv s)
    (hi : arbiterEvent inp s = some i) : exec i t = .next (applyEvent t i) := by
  have hlen := h.length_le
  obtain ⟨-, ⟨hcan, p, rfl, hp, -⟩ | ⟨hcan, rfl⟩ | ⟨p, b, hcan, rfl⟩ | ⟨p, hcan, rfl⟩⟩ := arbiterEvent_cases inp s i hi
  · obtain ⟨hrun, hfree⟩ := (canGrant_iff s).mp hcan
    rw [exec_wgrant p t (h.cfg ▸ hp), if_pos ((canGrant_iff t).mpr ⟨h.run.mpr hrun, h.owner.trans hfree⟩)]
    rfl
  · obtain ⟨hrun, hopen, hpre, hroom⟩ := (canPre_iff s).mp hcan
    have hcan' : canPre t = true :=
      (canPre_iff t).mpr ⟨h.run.mpr hrun, h.owner ▸ hopen, h.pre ▸ hpre, h.cfg ▸ hlen.trans_lt hroom⟩
    rw [exec_wpre, if_pos hcan']
    rfl
  · obtain ⟨hrun, howner, hpre, hroom⟩ := (canByte_iff p s).mp hcan
    have hcan' : canByte p t = true := (canByte_iff p t).mpr
      ⟨h.run.mpr hrun, h.owner.trans howner, h.pre.trans hpre, h.cfg ▸ hlen.trans_lt hroom⟩
    rw [exec_wbyte p b t (h.cfg ▸ (hinv.owner_port p howner).1), if_pos hcan']
    rfl
  · obtain ⟨hrun, howner, hpre⟩ := (canEnd_iff p s).mp hcan
    have hcan' : canEnd p t = true :=
      (canEnd_iff p t).mpr ⟨h.run.mpr hrun, h.owner.trans howner, h.pre.trans hpre⟩
    rw [exec_wend p t (h.cfg ▸ (hinv.owner_port p howner).1), if_pos hcan']
    rfl

theorem refusals_run (l : List Nat) (u : State) (h : ∀ p ∈ l, p < u.cfg.nprod ∧ canRefuse p u = true) :
    Runs (l.map .wrefuse) u := by
  induction l generalizing u with
  | nil => exact runs_nil u
  | cons p l ih =>
    obtain ⟨hp, hcan⟩ := h p List.mem_cons_self
    have hexec : exec (.wrefuse p) u = .next (refuseEvent p u) := by rw [exec_wrefuse p u hp, if_pos hcan]
    refine (runs_singleton (.wrefuse p) u hexec).append (ih (refuseEvent p u) fun q hq => ?_)
    rw [refuseEvent_eq p u ((canRefuse_iff p u).mp hcan).2]
    exact h q (List.mem_cons_of_mem p hq)

theorem mem_refusedProducers (inp : PortIn) (s : State) (p : Nat) : p ∈ refusedProducers inp s ↔
    p < s.cfg.nprod ∧ inp.wrReq.getD p false = true ∧ s.owner ≠ some p ∧ (s.encMode ≠ .run ∨ closing inp s = true) := by
  simp only [refusedProducers, requesters, wrReqOf, List.mem_filter, List.mem_range, Bool.and_eq_true, Bool.or_eq_true,
    bne_iff_ne]
  tauto

theorem closing_iff (inp : PortIn) (s : State) :
    closing inp s = true ↔ inp.closeReq = true ∧ s.encMode = .run := by simp [closing, canClose]

theorem arbiterEvent_of_closing (inp : PortIn) (s : State) (h : closing inp s = true) : arbiterEvent inp s = none :=
  if_pos h

/-- Where some producer is refused the arbiter has no event, and the refusal takes place after the decision of the closer. -/
theorem canRefuse_afterDecision (inp : PortIn) (s : State) (p : Nat) (h : p ∈ refusedProducers inp s) :
    p < (afterDecision inp s (afterTick inp s)).cfg.nprod ∧
      canRefuse p (afterDecision inp s (afterTick inp s)) = true := by
  obtain ⟨hp, -, howner, hwhy⟩ := (mem_refusedProducers inp s p).mp h
  have hframe := afterTick_frame inp s
  by_cases hclose : closing inp s = true
  · rw [afterDecision, arbiterEvent_of_closing inp s hclose, if_pos hclose]
    simp [closeEvent_eq, canRefuse, hframe.cfg, hp]
  · have hmode : s.encMode ≠ .run := hwhy.resolve_right hclose
    rw [afterDecision, arbiterEvent_of_not_run inp s hmode, if_neg hclose]
    exact ⟨hframe.cfg ▸ hp, (canRefuse_iff p _).mpr ⟨mt hframe.run.mp hmode, hframe.owner ▸ howner⟩⟩

theorem tickEvents_run (inp : PortIn) (s : State) : Runs (tickEvents inp s) s := by
  unfold tickEvents
  split
  · exact runs_singleton _ s (exec_tick_due inp.drvErr s ‹_›)
  · exact runs_nil s

theorem closeEvents_run (inp : PortIn) (s : State) : Runs (closeEvents inp s) (afterTick inp s) := by
  unfold closeEvents
  split
  case isTrue hclose =>
    have hrun := (afterTick_frame inp s).run.mpr ((closing_iff inp s).mp hclose).2
    refine runs_singleton .close _ ?_
    rw [exec_close, if_pos ((canClose_iff _).mpr hrun)]
    rfl
  case isFalse => exact runs_nil _

theorem arbiterEvent_run (inp : PortIn) (s : State) (hinv : CoreInv s) :
    Runs (arbiterEvent inp s).toList (if closing inp s then closeEvent (afterTick inp s) else afterTick inp s) := by
  cases hi : arbiterEvent inp s with
  | none => exact runs_nil _
  | some i =>
    obtain ⟨hclose, -⟩ := arbiterEvent_cases inp s i hi
    rw [if_neg (Bool.eq_false_iff.mp hclose)]
    exact runs_singleton i _ ((afterTick_frame inp s).arbiterEvent_takes hinv hi)

theorem edgeInput_run (inp : PortIn) (v : State) : Runs (edgeInput inp).toList v := by
  cases hi : edgeInput inp with
  | none => exact runs_nil v
  | some i =>
    rw [edgeInput_cases inp i hi]
    refine runs_singleton _ v ((exec_edgeInstr _ _ v).trans ?_)
    cases Dir.ofBit inp.edgeDir <;> rfl

/-- Every sampled event of a cycle takes place, in the order of the schedule. -/
theorem sampledEvents_run (inp : PortIn) (s : State) (hinv : CoreInv s) : Runs (sampledEvents inp s) s := by
  rw [sampledEvents_eq]
  refine ((((tickEvents_run inp s).append ?close).append ?arbiter).append ?refusals).append (edgeInput_run inp _) <;>
    simp only [List.foldl_append, foldl_tickEvents, foldl_closeEvents]
  case close => exact closeEvents_run inp s
  case arbiter => exact arbiterEvent_run inp s hinv
  case refusals => exact refusals_run _ _ fun p hp => canRefuse_afterDecision inp s p hp

/-! ### The invariant along a cycle and a step -/

theorem clkCycle_inv (inp : PortIn) (s : State) (h : CoreInv s) : CoreInv (clkCycle inp s) := by
  cases hr : inp.rst
  case true => rw [clkCycle_rst inp s hr]; exact doReset_inv s h
  case false =>
    obtain ⟨hcfg, -⟩ := foldl_applyEvent_frame (sampledEvents inp s) s (sampledEvents_ne inp s)
    have hevents : CoreInv ((sampledEvents inp s).foldl applyEvent s) :=
      execAll_inv _ s _ (sampledEvents_wellFormed inp s) h (sampledEvents_run inp s h)
    have hdiv := h.div_bound
    rw [clkCycle_eq inp s hr]
    exact { hevents with div_bound := by simp only [hcfg]; split_ifs <;> omega }

/-- Settles O8: a word by `exec_inv`, what decodes being well-formed; a port sample by `clkCycle_inv`. -/
theorem stepKeepsInvariant : Obligations.StepKeepsInvariant := by
  intro s t hinv hstep
  rw [step_of_sane s hinv.sane] at hstep
  have hbegin := beginStep_inv (nextStimulus s).2 s hinv
  cases hx : (nextStimulus s).1 with
  | ports inp =>
    rw [hx] at hstep
    exact Host.Outcome.next.inj hstep ▸ clkCycle_inv inp _ hbegin
  | word w =>
    cases hdec : decode w with
    | error e => rw [hx, runStimulus_error w e _ hdec] at hstep; cases hstep
    | ok i =>
      rw [hx, runStimulus_ok w i _ hdec] at hstep
      exact exec_inv i _ t (encodeOfDecode w i hdec).1 hbegin hstep

end Sys2Proof.Machine
end

section
/-! Which events a cycle has, and what each half of the core sees of a cycle (30_encoding.md section 7, 00_scope.md section 4). -/

namespace Sys2Proof.Machine

/-! ### The events of a cycle -/

theorem arbiterEvent_eq_wpre_iff (inp : PortIn) (s : State) :
    arbiterEvent inp s = some .wpre ↔ closing inp s = false ∧ canPre s = true := by
  constructor
  · intro h
    obtain ⟨hclose, ⟨-, p, hi, -⟩ | ⟨hcan, -⟩ | ⟨p, b, -, hi⟩ | ⟨p, -, hi⟩⟩ := arbiterEvent_cases inp s _ h
    · cases hi
    · exact ⟨hclose, hcan⟩
    · cases hi
    · cases hi
  · rintro ⟨hclose, hcan⟩
    have hgrant : ¬ canGrant s = true := fun hg => ((canPre_iff s).mp hcan).2.1 ((canGrant_iff s).mp hg).2
    simp [arbiterEvent, hclose, hgrant, hcan]

/-- With the preamble of an open burst pushed the arbiter has a byte or the end of that burst, by the request of its owner. -/
theorem arbiterEvent_of_owner (inp : PortIn) (s : State) (p : Nat) (hclose : closing inp s = false)
    (howner : s.owner = some p) (hpre : s.preLeft = 0) : arbiterEvent inp s =
      if inp.wrReq.getD p false then
        if canByte p s && inp.wrValid.getD p false then some (.wbyte p (inp.wrData.getD p 0)) else none
      else if canEnd p s then some (.wend p) else none := by
  simp [arbiterEvent, hclose, canGrant, canPre, howner, hpre, wrReqOf]

theorem arbiterEvent_eq_wbyte_iff (inp : PortIn) (s : State) (p : Nat) (b : Byte) :
    arbiterEvent inp s = some (.wbyte p b) ↔ closing inp s = false ∧ canByte p s = true ∧
      inp.wrReq.getD p false = true ∧ inp.wrValid.getD p false = true ∧ b = inp.wrData.getD p 0 := by
  constructor
  · intro h
    obtain ⟨hclose, ⟨-, q, hi, -⟩ | ⟨-, hi⟩ | ⟨q, c, hcan, hi⟩ | ⟨q, -, hi⟩⟩ := arbiterEvent_cases inp s _ h <;>
      cases hi
    obtain ⟨-, howner, hpre, -⟩ := (canByte_iff p s).mp hcan
    rw [arbiterEvent_of_owner inp s p hclose howner hpre] at h
    split_ifs at h with hreq hboth <;> cases h
    exact ⟨hclose, hcan, hreq, (Bool.and_eq_true_iff.mp hboth).2, rfl⟩
  · rintro ⟨hclose, hcan, hreq, hvalid, rfl⟩
    obtain ⟨-, howner, hpre, -⟩ := (canByte_iff p s).mp hcan
    rw [arbiterEvent_of_owner inp s p hclose howner hpre, if_pos hreq, hcan, hvalid]
    rfl

theorem arbiterEvent_eq_wend_iff (inp : PortIn) (s : State) (p : Nat) :
    arbiterEvent inp s = some (.wend p) ↔
      closing inp s = false ∧ canEnd p s = true ∧ inp.wrReq.getD p false = false := by
  constructor
  · intro h
    obtain ⟨hclose, ⟨-, q, hi, -⟩ | ⟨-, hi⟩ | ⟨q, b, -, hi⟩ | ⟨q, hcan, hi⟩⟩ := arbiterEvent_cases inp s _ h <;>
      cases hi
    obtain ⟨-, howner, hpre⟩ := (canEnd_iff p s).mp hcan
    rw [arbiterEvent_of_owner inp s p hclose howner hpre] at h
    split_ifs at h with hreq <;> cases h
    exact ⟨hclose, hcan, Bool.eq_false_iff.mpr hreq⟩
  · rintro ⟨hclose, hcan, hreq⟩
    obtain ⟨-, howner, hpre⟩ := (canEnd_iff p s).mp hcan
    rw [arbiterEvent_of_owner inp s p hclose howner hpre, hreq, hcan]
    rfl

/-- Every event of the arbiter is one of the four, the byte the one its producer shows. -/
theorem arbiterEvent_form (inp : PortIn) (s : State) (i : Instr) (h : arbiterEvent inp s = some i) :
    i = .wpre ∨ ∃ p, i = .wgrant p ∨ i = .wbyte p (inp.wrData.getD p 0) ∨ i = .wend p := by
  obtain ⟨-, ⟨-, p, hi, -⟩ | ⟨-, hi⟩ | ⟨p, b, -, hi⟩ | ⟨p, -, hi⟩⟩ := arbiterEvent_cases inp s i h
  · exact .inr ⟨p, .inl hi⟩
  · exact .inl hi
  · subst hi
    obtain ⟨-, -, -, -, rfl⟩ := (arbiterEvent_eq_wbyte_iff inp s p b).mp h
    exact .inr ⟨p, .inr (.inl rfl)⟩
  · exact .inr ⟨p, .inr (.inr hi)⟩

theorem mem_sampledEvents (inp : PortIn) (s : State) (i : Instr) : i ∈ sampledEvents inp s ↔
    (tickDue s = true ∧ i = .tick inp.drvErr) ∨ (closing inp s = true ∧ i = .close) ∨ arbiterEvent inp s = some i ∨
      (∃ p ∈ refusedProducers inp s, i = .wrefuse p) ∨
      (inp.edgeValid = true ∧ i = edgeInstr (Dir.ofBit inp.edgeDir) inp.edgeTs) := by
  have hedge : edgeInput inp = some i ↔ inp.edgeValid = true ∧ i = edgeInstr (Dir.ofBit inp.edgeDir) inp.edgeTs := by
    unfold edgeInput
    cases inp.edgeValid <;> cases Dir.ofBit inp.edgeDir <;> simp [edgeInstr, eq_comm]
  simp only [sampledEvents_eq, tickEvents, closeEvents, List.mem_append, List.mem_map, Option.mem_toList, hedge,
    List.mem_ite_nil_right, List.mem_singleton, or_assoc, eq_comm (b := i)]

theorem arbiterEvent_ne (inp : PortIn) (s : State) (i : Instr)
    (h : ∀ p b, i ≠ .wpre ∧ i ≠ .wgrant p ∧ i ≠ .wbyte p b ∧ i ≠ .wend p) : arbiterEvent inp s ≠ some i := by
  intro hi
  obtain rfl | ⟨p, rfl | rfl | rfl⟩ := arbiterEvent_form inp s i hi
  · exact (h 0 0).1 rfl
  · exact (h p 0).2.1 rfl
  · exact (h p _).2.2.1 rfl
  · exact (h p 0).2.2.2 rfl

theorem closing_eq_false_iff (inp : PortIn) (s : State) (hrun : s.encMode = .run) :
    closing inp s = false ↔ inp.closeReq = false := by simp [closing, canClose, hrun]

theorem edgeInstr_format (d : Dir) (ts : Nat) : (edgeInstr d ts).format = .edge := by cases d <;> rfl

/-- A port event is not the edge of the cycle. -/
theorem ne_edgeInstr {i : Instr} (h : i.format = .port) (d : Dir) (ts : Nat) : i ≠ edgeInstr d ts := by
  rintro rfl
  exact absurd ((edgeInstr_format d ts).symm.trans h) nofun

/-- An event that only the arbiter has. -/
theorem mem_sampledEvents_arbiter (inp : PortIn) (s : State) (i : Instr) (h : i.format = .port)
    (hother : ∀ f p, i ≠ .tick f ∧ i ≠ .close ∧ i ≠ .wrefuse p) :
    i ∈ sampledEvents inp s ↔ arbiterEvent inp s = some i := by
  obtain ⟨htick, hclose, -⟩ := hother inp.drvErr 0
  have hrefuse := fun p => (hother inp.drvErr p).2.2
  simp [mem_sampledEvents, htick, hclose, hrefuse, ne_edgeInstr h]

theorem tick_mem_sampledEvents (inp : PortIn) (s : State) :
    .tick inp.drvErr ∈ sampledEvents inp s ↔ s.clkRun = true ∧ s.div = s.cfg.half - 1 := by
  have harb := arbiterEvent_ne inp s (.tick inp.drvErr) (by simp)
  have hedge := ne_edgeInstr (i := .tick inp.drvErr) rfl
  simp [mem_sampledEvents, harb, hedge, tickDue_iff]

theorem close_mem_sampledEvents (inp : PortIn) (s : State) :
    .close ∈ sampledEvents inp s ↔ inp.closeReq = true ∧ s.encMode = .run := by
  have harb := arbiterEvent_ne inp s .close (by simp)
  have hedge := ne_edgeInstr (i := .close) rfl
  simp [mem_sampledEvents, harb, hedge, closing_iff]

theorem wpre_mem_sampledEvents (inp : PortIn) (s : State) : .wpre ∈ sampledEvents inp s ↔
    s.encMode = .run ∧ inp.closeReq = false ∧ s.owner ≠ none ∧ 0 < s.preLeft ∧ s.q.length < s.cfg.qdepth := by
  rw [mem_sampledEvents_arbiter inp s .wpre rfl (by simp), arbiterEvent_eq_wpre_iff, canPre_iff]
  have hclose := closing_eq_false_iff inp s
  tauto

theorem wgrant_of_mem_sampledEvents (inp : PortIn) (s : State) (p : Nat) (h : .wgrant p ∈ sampledEvents inp s) :
    s.encMode = .run ∧ inp.closeReq = false ∧ s.owner = none ∧ p < s.cfg.nprod ∧ inp.wrReq.getD p false = true := by
  rw [mem_sampledEvents_arbiter inp s (.wgrant p) rfl (by simp)] at h
  obtain ⟨hclose, ⟨hcan, q, hi, hq, hreq⟩ | ⟨-, hi⟩ | ⟨q, b, -, hi⟩ | ⟨q, -, hi⟩⟩ := arbiterEvent_cases inp s _ h <;>
    cases hi
  obtain ⟨hrun, hfree⟩ := (canGrant_iff s).mp hcan
  exact ⟨hrun, (closing_eq_false_iff inp s hrun).mp hclose, hfree, hq, hreq⟩

theorem wbyte_mem_sampledEvents (inp : PortIn) (s : State) (p : Nat) :
    .wbyte p (inp.wrData.getD p 0) ∈ sampledEvents inp s ↔ s.encMode = .run ∧ inp.closeReq = false ∧
      s.owner = some p ∧ s.preLeft = 0 ∧ inp.wrReq.getD p false = true ∧ inp.wrValid.getD p false = true ∧
      s.q.length < s.cfg.qdepth := by
  rw [mem_sampledEvents_arbiter inp s (.wbyte p _) rfl (by simp), arbiterEvent_eq_wbyte_iff, canByte_iff]
  have hclose := closing_eq_false_iff inp s
  tauto

theorem wend_mem_sampledEvents (inp : PortIn) (s : State) (p : Nat) : .wend p ∈ sampledEvents inp s ↔
    s.encMode = .run ∧ inp.closeReq = false ∧ s.owner = some p ∧ s.preLeft = 0 ∧ inp.wrReq.getD p false = false := by
  rw [mem_sampledEvents_arbiter inp s (.wend p) rfl (by simp), arbiterEvent_eq_wend_iff, canEnd_iff]
  have hclose := closing_eq_false_iff inp s
  tauto

theorem wrefuse_mem_sampledEvents (inp : PortIn) (s : State) (p : Nat) : .wrefuse p ∈ sampledEvents inp s ↔
    p < s.cfg.nprod ∧ inp.wrReq.getD p false = true ∧ s.owner ≠ some p ∧
      (s.encMode ≠ .run ∨ inp.closeReq = true) := by
  have harb := arbiterEvent_ne inp s (.wrefuse p) (by simp)
  have hmem : .wrefuse p ∈ sampledEvents inp s ↔ p ∈ refusedProducers inp s := by
    have hedge := ne_edgeInstr (i := .wrefuse p) rfl
    simp [mem_sampledEvents, harb, hedge]
  rw [hmem, mem_refusedProducers, closing_iff]
  tauto

theorem edge_mem_sampledEvents (inp : PortIn) (s : State) (d : Dir) :
    edgeInstr d inp.edgeTs ∈ sampledEvents inp s ↔ inp.edgeValid = true ∧ inp.edgeDir = d.toBit := by
  have harb := arbiterEvent_ne inp s (edgeInstr d inp.edgeTs) (by cases d <;> simp [edgeInstr])
  rw [mem_sampledEvents]
  cases d <;> cases inp.edgeDir <;> simp only [edgeInstr] at harb <;> simp [harb, edgeInstr, Dir.ofBit, Dir.toBit]

theorem sampledEvents_form (inp : PortIn) (s : State) (i : Instr) (h : i ∈ sampledEvents inp s) :
    i = .tick inp.drvErr ∨ i = .close ∨ i = .wpre ∨
      (∃ p, i = .wgrant p ∨ i = .wbyte p (inp.wrData.getD p 0) ∨ i = .wend p ∨ i = .wrefuse p) ∨
      i = .edgeR inp.edgeTs ∨ i = .edgeF inp.edgeTs := by
  obtain ⟨-, rfl⟩ | ⟨-, rfl⟩ | h | ⟨p, -, rfl⟩ | ⟨-, rfl⟩ := (mem_sampledEvents inp s i).mp h
  · exact .inl rfl
  · exact .inr (.inl rfl)
  · obtain rfl | ⟨p, hp⟩ := arbiterEvent_form inp s i h
    · exact .inr (.inr (.inl rfl))
    · exact .inr (.inr (.inr (.inl ⟨p, by tauto⟩)))
  · exact .inr (.inr (.inr (.inl ⟨p, by simp⟩)))
  · cases Dir.ofBit inp.edgeDir
    · exact .inr (.inr (.inr (.inr (.inr rfl))))
    · exact .inr (.inr (.inr (.inr (.inl rfl))))

/-! ### The decoder's view of a cycle -/

theorem SameView.refl (s : State) : SameView True 0 s s :=
  ⟨rfl, rfl, rfl, rfl, rfl, rfl, rfl, rfl, rfl, rfl, fun _ => ⟨rfl, rfl⟩⟩

theorem SameView.trans {strobes : Prop} {s t u : State} (h : SameView strobes 0 s t) (k : SameView strobes 0 t u) :
    SameView strobes 0 s u where
  cfg := k.cfg.trans h.cfg
  sync := k.sync.trans h.sync
  haveLast := k.haveLast.trans h.haveLast
  lastTs := k.lastTs.trans h.lastTs
  phase := k.phase.trans h.phase
  run := k.run.trans h.run
  slot := k.slot.trans h.slot
  shreg := k.shreg.trans h.shreg
  rxBytes := k.rxBytes.trans h.rxBytes
  rxErrs := k.rxErrs.trans h.rxErrs
  pulses := fun hs => ⟨(k.pulses hs).1.trans (h.pulses hs).1, (k.pulses hs).2.trans (h.pulses hs).2⟩

theorem SameView.symm {strobes : Prop} {s t : State} (h : SameView strobes 0 s t) : SameView strobes 0 t s :=
  ⟨h.cfg.symm, h.sync.symm, h.haveLast.symm, h.lastTs.symm, h.phase.symm, h.run.symm, h.slot.symm, h.shreg.symm,
    h.rxBytes.symm, h.rxErrs.symm, fun hs => ⟨(h.pulses hs).1.symm, (h.pulses hs).2.symm⟩⟩

theorem SameView.decoderPart {s t : State} (h : SameView True 0 s t) : decoderPart t = decoderPart s := by
  obtain ⟨hemit, herr⟩ := h.pulses trivial
  have hts : t.lastTs = s.lastTs := h.lastTs
  simp only [Machine.decoderPart, h.sync, h.haveLast, hts, h.phase, h.run, h.slot, h.shreg, h.rxBytes, h.rxErrs, hemit,
    herr]

theorem TickEffect.sameView {fail : Bool} {s t : State} (h : TickEffect fail s t) : SameView True 0 s t := by
  cases h with
  | sends u k q hq => rw [emitHalf_closed]; exact { SameView.refl s with }
  | completes hmode => exact { SameView.refl s with }
  | idles => exact { SameView.refl s with }

theorem refuseEvent_sameView (p : Nat) (s : State) : SameView True 0 s (refuseEvent p s) := by
  by_cases howner : s.owner = some p
  · rw [refuseEvent, raise_writeAfterClose_owner p s howner]; exact { SameView.refl s with }
  · rw [refuseEvent_eq p s howner]; exact { SameView.refl s with }

/-! ### The events of the closer and the arbiter -/

/-- The events of a cycle that are neither its tick nor its edge. -/
inductive ArbiterSide : Instr → Prop where
  | close : ArbiterSide .close
  | grant (p : Nat) : ArbiterSide (.wgrant p)
  | pre : ArbiterSide .wpre
  | byte (p : Nat) (b : Byte) : ArbiterSide (.wbyte p b)
  | ends (p : Nat) : ArbiterSide (.wend p)
  | refuse (p : Nat) : ArbiterSide (.wrefuse p)

/-- The events of the cycle that starts in `s` that are neither its tick nor its edge. -/
def arbiterSideEvents (inp : PortIn) (s : State) : List Instr :=
  closeEvents inp s ++ (arbiterEvent inp s).toList ++ (refusedProducers inp s).map .wrefuse

theorem arbiterSide_of_mem {inp : PortIn} {s : State} {i : Instr} (h : i ∈ arbiterSideEvents inp s) :
    ArbiterSide i := by
  simp only [arbiterSideEvents, closeEvents, List.mem_append, List.mem_map, Option.mem_toList,
    List.mem_ite_nil_right, List.mem_singleton] at h
  obtain (⟨-, rfl⟩ | h) | ⟨p, -, rfl⟩ := h
  · exact .close
  · obtain rfl | ⟨p, rfl | rfl | rfl⟩ := arbiterEvent_form inp s i h
    · exact .pre
    · exact .grant p
    · exact .byte p _
    · exact .ends p
  · exact .refuse p

theorem afterTransmit_eq (inp : PortIn) (s : State) :
    afterTransmit inp s = (arbiterSideEvents inp s).foldl applyEvent (afterTick inp s) := by
  simp only [arbiterSideEvents, List.foldl_append, foldl_closeEvents]
  rfl

/-- What every event of a list keeps, and what holds along a chain, the list keeps. -/
theorem foldl_applyEvent_rel {R : State → State → Prop} (hrefl : ∀ s, R s s)
    (htrans : ∀ s t u, R s t → R t u → R s u) (l : List Instr) (h : ∀ t, ∀ i ∈ l, R t (applyEvent t i)) (s : State) :
    R s (l.foldl applyEvent s) := by
  induction l generalizing s with
  | nil => exact hrefl s
  | cons i l ih =>
    exact htrans s (applyEvent s i) _ (h s i List.mem_cons_self)
      (ih (fun t j hj => h t j (List.mem_cons_of_mem i hj)) (applyEvent s i))

theorem ArbiterSide.sameView {i : Instr} (h : ArbiterSide i) (t : State) : SameView True 0 t (applyEvent t i) := by
  cases h with
  | close => rw [applyEvent, closeEvent_eq]; exact { SameView.refl t with }
  | refuse p => exact refuseEvent_sameView p t
  | _ => exact { SameView.refl t with }

/-- The transmit side of a cycle leaves what the decoder reads and writes. -/
theorem afterTransmit_sameView (inp : PortIn) (s : State) : SameView True 0 s (afterTransmit inp s) := by
  have htick : SameView True 0 s (afterTick inp s) := by
    unfold afterTick
    split
    · exact (tickEvent_effect inp.drvErr s).sameView
    · exact SameView.refl s
  rw [afterTransmit_eq]
  exact htick.trans (foldl_applyEvent_rel SameView.refl (fun _ _ _ h k => h.trans k) _
    (fun t i hi => (arbiterSide_of_mem hi).sameView t) _)

theorem SameView.afterEdge {strobes : Prop} {s t : State} (h : SameView strobes 0 s t) (inp : PortIn) :
    SameView strobes 0 (afterEdge inp s) (afterEdge inp t) := by
  unfold Machine.afterEdge
  split
  · exact h.edgeEvent _ _
  · exact h

/-- The decoder sees of a cycle the edge alone. -/
theorem clkCycle_sameView (inp : PortIn) (s : State) (hr : inp.rst = false) :
    SameView True 0 (afterEdge inp s) (clkCycle inp s) := by
  rw [clkCycle_stages inp s hr]
  exact { (afterTransmit_sameView inp s).afterEdge inp with }

theorem SameView.weaken {s t : State} (h : SameView True 0 s t) : SameView False 0 s t := { h with pulses := nofun }

/-- Settles O40: both cycles show the decoder their edge alone, and the edges agree. -/
theorem decoderIgnoresTransmitSide : Obligations.DecoderIgnoresTransmitSide := by
  intro inp inp' s s' hr hr' hvalid hdir hts hcfg hdec t t'
  simp only [Prod.mk.injEq] at hdec
  obtain ⟨hsync, hlast, hlastTs, hphase, hrun, hslot, hshreg, hbytes, herrs⟩ := hdec
  have hstart : SameView False 0 s s' :=
    ⟨hcfg.symm, hsync.symm, hlast.symm, hlastTs.symm, hphase.symm, hrun.symm, hslot.symm, hshreg.symm, hbytes.symm,
      herrs.symm, nofun⟩
  have hedge : afterEdge inp' s' = afterEdge inp s' := by rw [afterEdge, afterEdge, hvalid, hdir, hts]
  have hview : SameView False 0 t t' :=
    (clkCycle_sameView inp s hr).weaken.symm.trans
      ((hstart.afterEdge inp).trans (hedge ▸ (clkCycle_sameView inp' s' hr').weaken))
  have hts' : t'.lastTs = t.lastTs := hview.lastTs
  simp only [hview.sync, hview.haveLast, hts', hview.phase, hview.run, hview.slot, hview.shreg, hview.rxBytes,
    hview.rxErrs]

/-- Settles O24: `sampledEvents_run` for the schedule, the membership lemmas for its events, `clkCycle_sameView` for the decoder. -/
theorem cycleIsScheduleOfEvents : Obligations.CycleIsScheduleOfEvents := by
  intro inp s hinv hr
  have hview := (clkCycle_sameView inp s hr).decoderPart
  refine ⟨⟨_, sampledEvents_run inp s hinv, ?schedule⟩, sampledEvents_form inp s, tick_mem_sampledEvents inp s,
    close_mem_sampledEvents inp s, wpre_mem_sampledEvents inp s, wgrant_of_mem_sampledEvents inp s,
    wbyte_mem_sampledEvents inp s, wend_mem_sampledEvents inp s, wrefuse_mem_sampledEvents inp s,
    edge_mem_sampledEvents inp s .rising, edge_mem_sampledEvents inp s .falling, fun hvalid => ?edge,
    fun hvalid => ?noEdge⟩
  case schedule => rw [clkCycle_eq inp s hr]
  case edge =>
    rw [afterEdge, if_pos hvalid] at hview
    refine ⟨_, ?_, hview⟩
    cases inp.edgeDir <;> rfl
  case noEdge => rwa [afterEdge, if_neg (Bool.eq_false_iff.mp hvalid)] at hview

/-! ### The transmit side's view of a cycle -/

theorem emitHalf_withDecoderOf (u : TxUnit) (k : Nat) (fail : Bool) (t d : State) :
    emitHalf u k fail (withDecoderOf t d) = withDecoderOf (emitHalf u k fail t) d := by
  rw [emitHalf_closed, emitHalf_closed]; rfl

theorem encoderStep_withDecoderOf (fail : Bool) (t d : State) :
    encoderStep fail (withDecoderOf t d) = withDecoderOf (encoderStep fail t) d := by
  obtain ⟨hb, he⟩ | ⟨hb, u, rest, hq, he⟩ | ⟨hb, hq, hm, he⟩ | ⟨hb, hq, hm, he⟩ := encoderStep_cases fail t <;> rw [he]
  · exact (encoderStep_in_unit fail (withDecoderOf t d) hb).trans (emitHalf_withDecoderOf _ _ fail t d)
  · exact (encoderStep_dequeues fail (withDecoderOf t d) hb hq).trans (emitHalf_withDecoderOf u 0 fail (popUnit u rest t) d)
  · exact encoderStep_drained fail (withDecoderOf t d) hb hq hm
  · exact encoderStep_idle fail (withDecoderOf t d) hb hq hm

theorem afterTick_withDecoderOf (inp : PortIn) (t d : State) :
    afterTick inp (withDecoderOf t d) = withDecoderOf (afterTick inp t) d := by
  have hdue : tickDue (withDecoderOf t d) = tickDue t := rfl
  unfold afterTick
  rw [hdue]
  split
  · rw [tickEvent, encoderStep_withDecoderOf]; rfl
  · rfl

/-- The events of the closer and the arbiter neither read nor write the decoder's part. -/
theorem ArbiterSide.withDecoderOf {i : Instr} (h : ArbiterSide i) (t d : State) :
    applyEvent (withDecoderOf t d) i = withDecoderOf (applyEvent t i) d := by
  cases h with
  | close => rw [applyEvent, applyEvent, closeEvent_eq, closeEvent_eq]; rfl
  | refuse p =>
    by_cases howner : t.owner = some p
    · rw [applyEvent, applyEvent, refuseEvent, refuseEvent, raise_writeAfterClose_owner p t howner,
        raise_writeAfterClose_owner p (Machine.withDecoderOf t d) howner]
      rfl
    · rw [applyEvent, applyEvent, refuseEvent_eq p t howner, refuseEvent_eq p (Machine.withDecoderOf t d) howner]
      rfl
  | _ => rfl

theorem afterTransmit_withDecoderOf (inp : PortIn) (t d : State) :
    afterTransmit inp (withDecoderOf t d) = withDecoderOf (afterTransmit inp t) d := by
  have hevents : arbiterSideEvents inp (withDecoderOf t d) = arbiterSideEvents inp t := rfl
  have hfold (l : List Instr) (hl : ∀ i ∈ l, ArbiterSide i) :
      ∀ u, l.foldl applyEvent (withDecoderOf u d) = withDecoderOf (l.foldl applyEvent u) d := by
    induction l with
    | nil => exact fun _ => rfl
    | cons i l ih =>
      intro u
      rw [List.foldl_cons, (hl i List.mem_cons_self).withDecoderOf u d]
      exact ih (fun j hj => hl j (List.mem_cons_of_mem i hj)) (applyEvent u i)
  rw [afterTransmit_eq, afterTransmit_eq, hevents, afterTick_withDecoderOf]
  exact hfold _ (fun i hi => arbiterSide_of_mem hi) _

theorem afterEdge_frame (inp : PortIn) (v : State) : afterEdge inp v = withDecoderOf v (afterEdge inp v) := by
  unfold afterEdge
  split
  · exact edgeEvent_frame _ _ v
  · rfl

/-- Settles O41: `s'` and `inp'` give the transmit side the same cycle, and the edge writes the decoder's part alone. -/
theorem transmitSideIgnoresDecoder : Obligations.TransmitSideIgnoresDecoder := by
  intro inp inp' s s' hr hinp hs t t'
  have hs' : s' = withDecoderOf s s' := hs
  have hr' : inp'.rst = false := by rw [hinp]; exact hr
  have htransmit : afterTransmit inp' s' = withDecoderOf (afterTransmit inp s) s' := by
    rw [hinp, hs']
    exact afterTransmit_withDecoderOf inp s s'
  have hend (u : State) : endCycle s' u = endCycle s u := by rw [hs']; rfl
  have ht : t = endCycle s (withDecoderOf (afterTransmit inp s) (afterEdge inp (afterTransmit inp s))) := by
    rw [← afterEdge_frame]; exact clkCycle_stages inp s hr
  have ht' : t' = endCycle s (withDecoderOf (afterTransmit inp s) (afterEdge inp' (afterTransmit inp' s'))) :=
    calc t' = endCycle s (afterEdge inp' (afterTransmit inp' s')) := (clkCycle_stages inp' s' hr').trans (hend _)
      _ = endCycle s (withDecoderOf (afterTransmit inp' s') (afterEdge inp' (afterTransmit inp' s'))) :=
          congrArg (endCycle s) (afterEdge_frame inp' _)
      _ = _ := by rw [htransmit]; rfl
  rw [ht, ht']
  rfl

end Sys2Proof.Machine
end

section
/-! What one cycle does to the clock, the line and the producers (60_exceptions.md R250, 40_clock.md R122, 42_queue_arbiter.md). -/

namespace Sys2Proof.Machine

/-! ### What a cycle does but for its tick -/

/-- What only a tick writes is the same in `s` and `t`. -/
structure LineSame (s t : State) : Prop where
  cfg    : t.cfg = s.cfg
  clkRun : t.clkRun = s.clkRun
  busy   : t.busy = s.busy
  txLog  : t.txLog = s.txLog
  txSet  : t.txSet = s.txSet
  ticks  : t.ticks = s.ticks

theorem LineSame.refl (s : State) : LineSame s s := ⟨rfl, rfl, rfl, rfl, rfl, rfl⟩

theorem LineSame.trans {s t u : State} (h : LineSame s t) (k : LineSame t u) : LineSame s u :=
  ⟨k.cfg.trans h.cfg, k.clkRun.trans h.clkRun, k.busy.trans h.busy, k.txLog.trans h.txLog, k.txSet.trans h.txSet,
    k.ticks.trans h.ticks⟩

theorem refuseEvent_lineSame (p : Nat) (s : State) : LineSame s (refuseEvent p s) := by
  by_cases howner : s.owner = some p
  · rw [refuseEvent, raise_writeAfterClose_owner p s howner]; exact { LineSame.refl s with }
  · rw [refuseEvent_eq p s howner]; exact { LineSame.refl s with }

theorem ArbiterSide.lineSame {i : Instr} (h : ArbiterSide i) (t : State) : LineSame t (applyEvent t i) := by
  cases h with
  | close => rw [applyEvent, closeEvent_eq]; exact { LineSame.refl t with }
  | refuse p => exact refuseEvent_lineSame p t
  | _ => exact { LineSame.refl t with }

theorem afterEdge_lineSame (inp : PortIn) (v : State) : LineSame v (afterEdge inp v) := by
  rw [afterEdge_frame]
  exact { LineSame.refl v with }

/-- A cycle does to the clock and the line what its tick does. -/
theorem clkCycle_lineSame (inp : PortIn) (s : State) (hr : inp.rst = false) :
    LineSame (afterTick inp s) (clkCycle inp s) := by
  have htransmit : LineSame (afterTick inp s) (afterTransmit inp s) := by
    rw [afterTransmit_eq]
    exact foldl_applyEvent_rel LineSame.refl (fun _ _ _ h k => h.trans k) _
      (fun t i hi => (arbiterSide_of_mem hi).lineSame t) _
  rw [clkCycle_stages inp s hr]
  exact { htransmit.trans (afterEdge_lineSame inp _) with }

/-! ### The times of the ticks (40_clock.md R122) -/

theorem afterTick_due (inp : PortIn) (s : State) (h : tickDue s = true) :
    afterTick inp s = tickEvent inp.drvErr s := if_pos h

theorem afterTick_not_due (inp : PortIn) (s : State) (h : ¬ tickDue s = true) : afterTick inp s = s := if_neg h

theorem afterTick_clkRun (inp : PortIn) (s : State) (h : (afterTick inp s).clkRun = true) : s.clkRun = true := by
  by_cases hdue : tickDue s = true
  · exact ((tickDue_iff s).mp hdue).1
  · rwa [afterTick_not_due inp s hdue] at h

theorem TickEffect.ticks {fail : Bool} {s t : State} (h : TickEffect fail s t) : t.ticks = s.ticks + 1 := by
  cases h <;> rfl

theorem afterTick_ticks (inp : PortIn) (s : State) :
    (afterTick inp s).ticks = s.ticks + if tickDue s then 1 else 0 := by
  by_cases hdue : tickDue s = true
  · rw [afterTick_due inp s hdue, (tickEvent_effect inp.drvErr s).ticks, if_pos hdue]
  · rw [afterTick_not_due inp s hdue, if_neg hdue, Nat.add_zero]

/-- At the last of `half` places the remainder starts again and the quotient goes up. -/
theorem succ_div_mod (n half : Nat) (h : 1 ≤ half) :
    (n + 1) / half = n / half + (if n % half = half - 1 then 1 else 0) ∧
    (n + 1) % half = if n % half = half - 1 then 0 else n % half + 1 := by
  have hn := Nat.div_add_mod n half
  have hlt := Nat.mod_lt n h
  rw [Nat.div_mod_unique h]
  split
  · rw [Nat.mul_add_one]; omega
  · simp only [Nat.add_zero]; omega

theorem clkCycle_cfg (inp : PortIn) (s : State) (hr : inp.rst = false) : (clkCycle inp s).cfg = s.cfg :=
  (clkCycle_lineSame inp s hr).cfg.trans (afterTick_frame inp s).cfg

theorem runCycles_cfg (inps : Nat → PortIn) (hr : ∀ k, (inps k).rst = false) (n : Nat) (s : State) :
    (runCycles inps n s).cfg = s.cfg := by
  induction n with
  | zero => rfl
  | succ n ih => exact (clkCycle_cfg (inps n) _ (hr n)).trans ih

/-- Settles O10: while the clock runs the divider is the cycle number modulo `HALF`, and a tick takes place where it wraps. -/
theorem ticksAreHalfApart : Obligations.TicksAreHalfApart := by
  intro c inps hsane hr n
  have hhalf : 1 ≤ c.half := ((sane_iff c).mp hsane).1
  induction n with
  | zero => exact fun _ => ⟨rfl, (Nat.zero_mod _).symm, (Nat.zero_div _).symm⟩
  | succ n ih =>
    intro hrun'
    have hline := clkCycle_lineSame (inps n) (runCycles inps n (State.resetWith c)) (hr n)
    have hrun := afterTick_clkRun _ _ (hline.clkRun.symm.trans hrun')
    have hcfg : (runCycles inps n (State.resetWith c)).cfg = c := runCycles_cfg inps hr n _
    obtain ⟨hcycle, hdiv, hticks⟩ := ih hrun
    obtain ⟨hquot, hrem⟩ := succ_div_mod n c.half hhalf
    have hdue : tickDue (runCycles inps n (State.resetWith c)) = true ↔ n % c.half = c.half - 1 := by
      simp [tickDue_iff, hrun, hdiv, hcfg]
    refine ⟨?cycle, ?div, ?ticks⟩
    case cycle => rw [runCycles, clkCycle_eq _ _ (hr n), hcycle]
    case div => simp only [runCycles, clkCycle_eq _ _ (hr n), hrun, hdiv, hcfg, hrem, if_true]
    case ticks => simp only [runCycles, hline.ticks, afterTick_ticks, hticks, hdue, hquot]

/-! ### What a cycle does to the producers -/

/-- But for the decoder's part, the divider and the cycle number a cycle is its part of the transmit side. -/
theorem clkCycle_transmit (inp : PortIn) (s : State) (hr : inp.rst = false) :
    ∃ d, clkCycle inp s = endCycle s (withDecoderOf (afterTransmit inp s) d) :=
  ⟨_, by rw [clkCycle_stages inp s hr, ← afterEdge_frame]⟩

theorem refusedProducers_running (inp : PortIn) (s : State) (hrun : s.encMode = .run) (hclose : inp.closeReq = false) :
    refusedProducers inp s = [] := by
  rw [List.eq_nil_iff_forall_not_mem]
  intro p hp
  obtain ⟨-, -, -, hwhy⟩ := (mem_refusedProducers inp s p).mp hp
  exact hwhy.elim (absurd hrun) fun h => absurd ((closing_iff inp s).mp h).1 (by simp [hclose])

/-- In `RUN` without a close the cycle has the tick and the arbiter's event. -/
theorem afterTransmit_running (inp : PortIn) (s : State) (i : Instr) (hrun : s.encMode = .run)
    (hclose : inp.closeReq = false) (hi : arbiterEvent inp s = some i) :
    afterTransmit inp s = applyEvent (afterTick inp s) i := by
  have hclosing : ¬ closing inp s = true := Bool.eq_false_iff.mp ((closing_eq_false_iff inp s hrun).mpr hclose)
  rw [afterTransmit, afterRefusals, refusedProducers_running inp s hrun hclose, afterDecision, if_neg hclosing, hi]
  rfl

/-! ### The grant of a cycle -/

theorem arbiterEvent_of_grant (inp : PortIn) (s : State) (hrun : s.encMode = .run) (hfree : s.owner = none)
    (hclose : inp.closeReq = false) : arbiterEvent inp s = (picked inp s).map .wgrant := by
  have hcan : canGrant s = true := (canGrant_iff s).mpr ⟨hrun, hfree⟩
  simp [arbiterEvent, (closing_eq_false_iff inp s hrun).mpr hclose, hcan]

theorem mem_requesters (inp : PortIn) (s : State) (p : Nat) :
    p ∈ requesters inp s ↔ p < s.cfg.nprod ∧ inp.wrReq.getD p false = true := by
  simp only [requesters, wrReqOf, List.mem_filter, List.mem_range]

/-- Where some producer requests, one of them is picked. -/
theorem picked_of_requester (inp : PortIn) (s : State) (h : requesters inp s ≠ []) :
    ∃ p ∈ requesters inp s, picked inp s = some p := by
  have hlt := Nat.mod_lt inp.pick (List.length_pos_iff.mpr h)
  exact ⟨_, List.getElem_mem hlt, List.getElem?_eq_getElem hlt⟩

/-- Every requesting producer is picked by some value of the arbiter's input. -/
theorem exists_pick (inp : PortIn) (s : State) (p : Nat) (h : p ∈ requesters inp s) :
    ∃ k, picked { inp with pick := k } s = some p := by
  obtain ⟨k, hk, hp⟩ := List.getElem_of_mem h
  refine ⟨k, ?_⟩
  have hmod : k % (requesters inp s).length = k := Nat.mod_eq_of_lt hk
  simp only [picked]
  exact (congrArg ((requesters inp s)[·]?) hmod).trans (List.getElem?_eq_some_iff.mpr ⟨hk, hp⟩)

/-- The cycle that grants to the producer picked. -/
theorem clkCycle_grants (inp : PortIn) (s : State) (p : Nat) (hr : inp.rst = false) (hrun : s.encMode = .run)
    (hfree : s.owner = none) (hclose : inp.closeReq = false) (hp : picked inp s = some p) :
    (clkCycle inp s).owner = some p ∧ (clkCycle inp s).preLeft = 2 ∧
      (clkCycle inp s).wrCount = s.wrCount.set p 0 ∧ (clkCycle inp s).wrErr = s.wrErr.set p false := by
  have hi : arbiterEvent inp s = some (.wgrant p) := by
    rw [arbiterEvent_of_grant inp s hrun hfree hclose, hp, Option.map_some]
  have hframe := afterTick_frame inp s
  obtain ⟨d, hd⟩ := clkCycle_transmit inp s hr
  rw [hd, afterTransmit_running inp s _ hrun hclose hi]
  exact ⟨rfl, rfl, congrArg (·.set p 0) hframe.count, congrArg (·.set p false) hframe.err⟩

/-- Settles O23: the producer picked is granted, and each requester is picked by some input. -/
theorem someRequesterIsGranted : Obligations.SomeRequesterIsGranted := by
  intro inp s hr hrun hfree hclose hreq
  refine ⟨?granted, fun p hp hreqp => ?reachable⟩
  case granted =>
    obtain ⟨p, hp⟩ := hreq
    obtain ⟨p', hmem, hpicked⟩ := picked_of_requester inp s (List.ne_nil_of_mem ((mem_requesters inp s p).mpr hp))
    obtain ⟨hp', hreq'⟩ := (mem_requesters inp s p').mp hmem
    exact ⟨p', hp', hreq', clkCycle_grants inp s p' hr hrun hfree hclose hpicked⟩
  case reachable =>
    obtain ⟨k, hk⟩ := exists_pick inp s p ((mem_requesters inp s p).mpr ⟨hp, hreqp⟩)
    obtain ⟨howner, hpre, -⟩ := clkCycle_grants { inp with pick := k } s p hr hrun hfree hclose hk
    exact ⟨k, howner, hpre⟩

/-! ### A push in a tick's own cycle -/

theorem CoreInv.qdepth_pos {s : State} (h : CoreInv s) : 0 < s.cfg.qdepth := ((sane_iff s.cfg).mp h.sane).2.1

/-- A tick that finds nothing to send in `RUN` is counted alone. -/
theorem afterTick_idle (inp : PortIn) (s : State) (hrun : s.encMode = .run) (hbusy : s.busy = false) (hq : s.q = []) :
    ∃ n, afterTick inp s = { s with ticks := n } := by
  by_cases hdue : tickDue s = true
  · rw [afterTick_due inp s hdue, tickEvent, encoderStep_idle inp.drvErr s hbusy hq (by simp [hrun])]
    exact ⟨_, rfl⟩
  · exact ⟨s.ticks, afterTick_not_due inp s hdue⟩

/-- An event of the arbiter finds the queue as the idle tick left it, empty, and the line keeps its rest. -/
theorem clkCycle_idle_tick (inp : PortIn) (s : State) (i : Instr) (u : TxUnit) (hr : inp.rst = false)
    (hrun : s.encMode = .run) (hclose : inp.closeReq = false) (hbusy : s.busy = false) (hq : s.q = [])
    (hi : arbiterEvent inp s = some i) (hpush : ∀ t, (applyEvent t i).q = t.q ++ [u]) :
    (clkCycle inp s).q = [u] ∧ (clkCycle inp s).txLog = s.txLog ∧ (clkCycle inp s).busy = false := by
  have hline := clkCycle_lineSame inp s hr
  obtain ⟨n, hn⟩ := afterTick_idle inp s hrun hbusy hq
  rw [hn] at hline
  refine ⟨?_, hline.txLog, hline.busy.trans hbusy⟩
  obtain ⟨d, hd⟩ := clkCycle_transmit inp s hr
  have hunits : (applyEvent (afterTick inp s) i).q = [u] := by rw [hpush, hn, hq, List.nil_append]
  rw [hd, afterTransmit_running inp s i hrun hclose hi]
  exact hunits

/-- Settles O25: the tick idles on the queue as it was at the start of the cycle, then the unit is pushed. -/
theorem pushNotSeenBySameCycleTick : Obligations.PushNotSeenBySameCycleTick := by
  intro inp s hinv hr hclose hrun hq hbusy hdiv t
  have hclosing := (closing_eq_false_iff inp s hrun).mpr hclose
  have hroom : s.q.length < s.cfg.qdepth := by rw [hq]; exact hinv.qdepth_pos
  refine ⟨fun hopen hpre => ?preamble, fun p howner hpre hreq hvalid => ?byte⟩
  case preamble =>
    have hi := (arbiterEvent_eq_wpre_iff inp s).mpr ⟨hclosing, (canPre_iff s).mpr ⟨hrun, hopen, hpre, hroom⟩⟩
    exact clkCycle_idle_tick inp s .wpre TxUnit.preamble hr hrun hclose hbusy hq hi fun _ => rfl
  case byte =>
    have hcan := (canByte_iff p s).mpr ⟨hrun, howner, hpre, hroom⟩
    have hi := (arbiterEvent_eq_wbyte_iff inp s p _).mpr ⟨hclosing, hcan, hreq, hvalid, rfl⟩
    exact clkCycle_idle_tick inp s _ (TxUnit.frame _) hr hrun hclose hbusy hq hi fun _ => rfl

/-! ### Refused calls -/

/-- The call of `p` is refused: count 0, the error bit and the pulse (60_exceptions.md R245). -/
structure Refused (p : Nat) (t : State) : Prop where
  count : t.wrCount.getD p 0 = 0
  err   : t.wrErr.getD p false = true
  done  : t.wrDone.getD p false = true

theorem getD_set_zero (l : List Nat) (p q : Nat) (h : l.getD q 0 = 0) : (l.set p 0).getD q 0 = 0 := by
  by_cases hpq : p = q
  · subst hpq
    by_cases hp : p < l.length
    · simp [hp]
    · rwa [List.set_eq_of_length_le (Nat.not_lt.mp hp)]
  · rwa [getD_set_ne l 0 0 hpq]

theorem refuseEvent_refused (p : Nat) (u : State) (hinv : CoreInv u) (hp : p < u.cfg.nprod) (hfree : u.owner = none) :
    Refused p (refuseEvent p u) := by
  rw [refuseEvent_eq p u (by simp [hfree])]
  refine ⟨?_, ?_, ?_⟩ <;> simp [hinv.count_ports, hinv.err_ports, hinv.done_ports, hp]

theorem Refused.refuseEvent {p : Nat} {u : State} (h : Refused p u) (q : Nat) (hfree : u.owner = none) :
    Refused p (refuseEvent q u) := by
  rw [refuseEvent_eq q u (by simp [hfree])]
  exact ⟨getD_set_zero u.wrCount q p h.count, getD_set_true u.wrErr q p h.err, getD_set_true u.wrDone q p h.done⟩

/-- A list of refusals where no burst is open: the encoder's side stays, no owner appears, and every producer of the list is
refused, as is each that was before. -/
theorem foldl_refusals (l : List Nat) (u : State) (hinv : CoreInv u) (hmode : u.encMode ≠ .run)
    (hport : ∀ p ∈ l, p < u.cfg.nprod) :
    EncoderSame u ((l.map Instr.wrefuse).foldl applyEvent u) ∧
      ((l.map Instr.wrefuse).foldl applyEvent u).owner = none ∧
      ∀ p, Refused p u ∨ p ∈ l → Refused p ((l.map Instr.wrefuse).foldl applyEvent u) := by
  induction l generalizing u with
  | nil => exact ⟨EncoderSame.refl u, hinv.owner_none_of_not_run hmode, fun p hp => hp.elim id nofun⟩
  | cons q l ih =>
    have hfree := hinv.owner_none_of_not_run hmode
    have hq := hport q List.mem_cons_self
    have hsame := refuseEvent_encoderSame q u
    have hinv' : CoreInv (refuseEvent q u) := refuseEvent_inv q u hinv ((canRefuse_iff q u).mpr ⟨hmode, by simp [hfree]⟩)
    obtain ⟨hrest, hnone, hall⟩ := ih (refuseEvent q u) hinv' (hsame.encMode ▸ hmode)
      fun p hp => hsame.cfg ▸ hport p (List.mem_cons_of_mem q hp)
    refine ⟨hsame.trans hrest, hnone, fun p hp => hall p ?_⟩
    obtain hp | hp := hp
    · exact .inl (hp.refuseEvent q hfree)
    · obtain rfl | hp := List.mem_cons.mp hp
      · exact .inl (refuseEvent_refused p u hinv hq hfree)
      · exact .inr hp

theorem afterTick_inv (inp : PortIn) (s : State) (hinv : CoreInv s) : CoreInv (afterTick inp s) := by
  by_cases hdue : tickDue s = true
  · rw [afterTick_due inp s hdue]; exact tickEvent_inv inp.drvErr s hinv ((tickDue_iff s).mp hdue).1
  · rwa [afterTick_not_due inp s hdue]

/-- Where the decision of the cycle is not in `RUN`, every producer it refuses is refused at its end. -/
theorem afterRefusals_of_not_run (inp : PortIn) (s u : State) (hinv : CoreInv u) (hmode : u.encMode ≠ .run)
    (hcfg : u.cfg = s.cfg) : EncoderSame u (afterRefusals inp s u) ∧ (afterRefusals inp s u).owner = none ∧
      ∀ p ∈ refusedProducers inp s, Refused p (afterRefusals inp s u) := by
  obtain ⟨hsame, hnone, hall⟩ := foldl_refusals (refusedProducers inp s) u hinv hmode
    fun p hp => hcfg ▸ ((mem_refusedProducers inp s p).mp hp).1
  exact ⟨hsame, hnone, fun p hp => hall p (.inr hp)⟩

/-- Settles O26: the decision of the cycle is the close alone, after the tick, and the refusals leave the queue to it. -/
theorem closeWinsOverArbiter : Obligations.CloseWinsOverArbiter := by
  intro inp s hinv hr hclose hrun
  have hclosing : closing inp s = true := (closing_iff inp s).mpr ⟨hclose, hrun⟩
  have harb := arbiterEvent_of_closing inp s hclosing
  have hframe := afterTick_frame inp s
  have htick := afterTick_inv inp s hinv
  have hdecision : afterDecision inp s (afterTick inp s) = closeEvent (afterTick inp s) := by
    rw [afterDecision, harb, if_pos hclosing]; rfl
  have hmode : (closeEvent (afterTick inp s)).encMode = .closing := by rw [closeEvent_eq]
  have hcfg : (closeEvent (afterTick inp s)).cfg = s.cfg := by rw [closeEvent_eq]; exact hframe.cfg
  have hq : (closeEvent (afterTick inp s)).q = (afterTick inp s).q := by rw [closeEvent_eq]
  have hinv' := closeEvent_inv _ htick ((canClose_iff _).mpr (hframe.run.mpr hrun))
  obtain ⟨hsame, hnone, hall⟩ := afterRefusals_of_not_run inp s _ hinv' (by simp [hmode]) hcfg
  obtain ⟨d, hd⟩ := clkCycle_transmit inp s hr
  rw [hd, afterTransmit, hdecision]
  refine ⟨harb, hsame.encMode.trans hmode, hnone, ?queue, fun p hp hreq howner => ?refused⟩
  case queue =>
    obtain ⟨pre, hpre⟩ := hframe.queue
    exact ⟨pre, (congrArg (pre ++ ·) (hsame.q.trans hq)).trans hpre⟩
  case refused =>
    obtain ⟨hcount, herr, hdone⟩ :=
      hall p ((mem_refusedProducers inp s p).mpr ⟨hp, hreq, howner, .inr hclosing⟩)
    exact ⟨hcount, herr, hdone⟩

/-- Settles O20: the rows WEND and WREFUSE, and the cycles whose arbiter's event or refusals they are. -/
theorem callEndsOrIsRefused : Obligations.CallEndsOrIsRefused := by
  intro p s hp
  refine ⟨exec_wend_open p s hp, exec_wrefuse_closed p s hp, fun inp hinv hr => ?cycle⟩
  have hframe := afterTick_frame inp s
  have htick := afterTick_inv inp s hinv
  obtain ⟨d, hd⟩ := clkCycle_transmit inp s hr
  rw [hd]
  refine ⟨fun hrun howner hpre hreq hclose => ?ends, fun hmode hreq => ?refused⟩
  case ends =>
    have hi := (arbiterEvent_eq_wend_iff inp s p).mpr
      ⟨(closing_eq_false_iff inp s hrun).mpr hclose, (canEnd_iff p s).mpr ⟨hrun, howner, hpre⟩, hreq⟩
    have hport : p < (afterTick inp s).wrDone.length := by rw [htick.done_ports, hframe.cfg]; exact hp
    have hdone : ((afterTick inp s).wrDone.set p true).getD p false = true := by simp [hport]
    rw [afterTransmit_running inp s _ hrun hclose hi]
    exact ⟨rfl, hdone, congrArg (·.getD p 0) hframe.count, congrArg (·.getD p false) hframe.err⟩
  case refused =>
    have hdecision : afterDecision inp s (afterTick inp s) = afterTick inp s := by
      rw [afterDecision, arbiterEvent_of_not_run inp s hmode, closing_of_not_run inp s hmode]; rfl
    obtain ⟨-, -, hall⟩ := afterRefusals_of_not_run inp s _ htick (mt hframe.run.mp hmode) hframe.cfg
    have howner : s.owner ≠ some p := by simp [hinv.owner_none_of_not_run hmode]
    obtain ⟨hcount, herr, hdone⟩ := hall p ((mem_refusedProducers inp s p).mpr ⟨hp, hreq, howner, .inl hmode⟩)
    rw [afterTransmit, hdecision]
    exact ⟨hcount, herr, hdone⟩

end Sys2Proof.Machine
end

section
/-! The output ports of a cycle (10_state.md R24). -/

namespace Sys2Proof.Machine

/-! ### The levels -/

theorem getElem?_map_range {α : Type} (f : Nat → α) {n p : Nat} (h : p < n) :
    ((List.range n).map f)[p]? = some (f p) := by simp [h]

theorem outputs_tx (s t : State) : (outputs s t).tx = true ↔ s.tx = .high := by
  cases htx : s.tx <;> simp [outputs, htx, Level.toBit]

theorem outputs_wrGnt (p : Nat) (s t : State) (hp : p < s.cfg.nprod) :
    (outputs s t).wrGnt[p]? = some (decide (s.owner = some p)) := by
  have hgrant : (s.owner == some p) = decide (s.owner = some p) := by
    rw [Bool.eq_iff_iff, beq_iff_eq, decide_eq_true_iff]
  rw [outputs, getElem?_map_range _ hp, hgrant]

theorem outputs_wrReady (p : Nat) (s t : State) (hp : p < s.cfg.nprod) : (outputs s t).wrReady[p]? =
    some (decide (s.owner = some p ∧ s.preLeft = 0 ∧ s.q.length < s.cfg.qdepth ∧ s.encMode = .run)) := by
  have hready : canByte p s =
      decide (s.owner = some p ∧ s.preLeft = 0 ∧ s.q.length < s.cfg.qdepth ∧ s.encMode = .run) := by
    rw [Bool.eq_iff_iff, canByte_iff, decide_eq_true_iff]
    tauto
  rw [outputs, getElem?_map_range _ hp, hready]

theorem outputs_encMode (s t : State) :
    (outputs s t).encMode = match s.encMode with | .run => 0 | .closing => 1 | .stopped => 2 := by
  cases hmode : s.encMode <;> simp [outputs, hmode, EncMode.code]

theorem outputs_rxSynced (s t : State) : (outputs s t).rxSynced = true ↔ s.sync = .synced := by
  cases hy : s.sync <;> simp [outputs, hy, Sync.toBit]

theorem outputs_rxErrCode (s t : State) (c : Cause) (h : t.rxErr = some c) : (outputs s t).rxErrCode = c.code := by
  rw [outputs, h]; rfl

/-! ### The strobes of a cycle -/

theorem TickEffect.strobe {fail : Bool} {s t : State} (h : TickEffect fail s t) (hset : s.txSet = false) :
    t.txSet = true ↔ t.txLog ≠ s.txLog := by
  cases h with
  | sends u k q hq => simp [emitHalf_closed]
  | completes hmode => simp [completeClose, hset]
  | idles => simp [hset]

theorem clkCycle_txSet (inp : PortIn) (s : State) (hr : inp.rst = false) (hset : s.txSet = false) :
    (clkCycle inp s).txSet = true ↔ (clkCycle inp s).txLog ≠ s.txLog := by
  have hline := clkCycle_lineSame inp s hr
  rw [hline.txSet, hline.txLog]
  by_cases hdue : tickDue s = true
  · rw [afterTick_due inp s hdue]; exact (tickEvent_effect inp.drvErr s).strobe hset
  · rw [afterTick_not_due inp s hdue]; simp [hset]

theorem DecoderOutput.strobes {s t : State} (h : DecoderOutput s t) (hemit : s.rxEmit = none) (herr : s.rxErr = none) :
    (t.rxEmit.isSome = true ↔ t.rxBytes ≠ s.rxBytes) ∧ (t.rxErr.isSome = true ↔ t.rxErrs ≠ s.rxErrs) := by
  cases h with
  | emits v bytes emit errs err before after => simp [bytes, emit, errs, err, herr]
  | reports c errs err decoder bytes emit after => simp [bytes, emit, errs, err, hemit]
  | silent bytes emit errs err => simp [bytes, emit, errs, err, hemit, herr]

theorem afterEdge_output (inp : PortIn) (s : State) : DecoderOutput s (afterEdge inp s) := by
  unfold afterEdge
  split
  · exact edgeEvent_output _ _ s
  · exact .silent rfl rfl rfl rfl

theorem clkCycle_rx (inp : PortIn) (s : State) (hr : inp.rst = false) (hemit : s.rxEmit = none) (herr : s.rxErr = none) :
    ((clkCycle inp s).rxEmit.isSome = true ↔ (clkCycle inp s).rxBytes ≠ s.rxBytes) ∧
      ((clkCycle inp s).rxErr.isSome = true ↔ (clkCycle inp s).rxErrs ≠ s.rxErrs) := by
  have hview := clkCycle_sameView inp s hr
  obtain ⟨hemit', herr'⟩ := hview.pulses trivial
  rw [hemit', herr', hview.rxBytes, hview.rxErrs]
  exact (afterEdge_output inp s).strobes hemit herr

theorem sane_of_step {s t : State} (h : step s = .next t) : s.cfg.sane = true := by
  by_contra hsane
  have hrefused : step s = .refused .illegalConfig := if_neg hsane
  cases hrefused.symm.trans h

/-- Settles O60: the ports are `outputs s t`; each level by its lemma, and the strobes of a cycle from the state its step begins in,
where all are 0. -/
theorem outputPorts : Obligations.OutputPorts := by
  intro p s t hstep hp
  have hcode := outputs_rxErrCode s t
  refine ⟨outputs s t, stepOutputs_of_next s t hstep, outputs_tx s t, outputs_wrGnt p s t hp, outputs_wrReady p s t hp,
    rfl, rfl, rfl, rfl, outputs_encMode s t, rfl, rfl, outputs_rxSynced s t, rfl, rfl, ?valid, fun v hv => ?data,
    ?errValid, hcode .bitSlip, hcode .framingStart, hcode .framingStop, hcode .phaseViolation, hcode .tsOrder,
    fun inp rest hstim hr => ?strobes⟩
  case valid => exact Option.isSome_iff_ne_none
  case data => rw [outputs, hv]; rfl
  case errValid => exact Option.isSome_iff_ne_none
  case strobes =>
    rw [step_cons s _ rest (sane_of_step hstep) hstim] at hstep
    obtain rfl := Host.Outcome.next.inj hstep
    exact ⟨clkCycle_txSet inp (beginStep rest s) hr rfl, clkCycle_rx inp (beginStep rest s) hr rfl rfl⟩

end Sys2Proof.Machine
end

section
/-! The rows of the formats, the functions and the codings: the value each leaves in the result (30_encoding.md, 41_classifier.md;
log entry 13). -/

namespace Sys2Proof

/-! ### Symbols, units and bursts on the line -/

theorem length_unitBits (u : TxUnit) : 2 * (unitBits u).length = nhalves u := by
  unfold unitBits nhalves
  split <;> simp [byteBits]

/-- The half-bit levels of a bit cell (30_encoding.md R92). -/
def cell (b : Bool) : List Level := if b then [.high, .low] else [.low, .high]

theorem cellLevel_pair (b : Bool) : [cellLevel b false, cellLevel b true] = cell b := by cases b <;> rfl

/-- The half-bits of a sequence of bits are those of its bits, two by two. -/
theorem map_cellLevel_eq_cells (bits : List Bool) :
    (List.range (2 * bits.length)).map (fun k => cellLevel (bits.getD (k / 2) false) (k % 2 == 1)) =
      bits.flatMap cell := by
  induction bits with
  | nil => rfl
  | cons b bits ih =>
    have hrest (k : Nat) : cellLevel ((b :: bits)[(k + 1 + 1) / 2]?.getD false) ((k + 1 + 1) % 2 == 1) =
        cellLevel (bits[k / 2]?.getD false) (k % 2 == 1) := by
      rw [Nat.add_mod_right k 2, Nat.add_div_right k Nat.two_pos, List.getElem?_cons_succ]
    rw [List.length_cons, Nat.mul_add_one, List.range_succ_eq_map, List.range_succ_eq_map, List.flatMap_cons,
      ← cellLevel_pair, ← ih]
    simp [Function.comp_def, hrest]

/-- The two half-bits of each bit, in the order of the bits (30_encoding.md R98). -/
theorem unitLevels_eq_cells (u : TxUnit) : unitLevels u = (unitBits u).flatMap cell := by
  rw [← map_cellLevel_eq_cells, length_unitBits, unitLevels]
  exact List.map_congr_left fun k hk => if_pos (List.mem_range.mp hk)

theorem unitBits_frame (v : Byte) : unitBits (TxUnit.frame v) = false :: (byteBits v ++ [true]) := rfl

theorem lineLevels_burstUnits (bs : List Byte) : lineLevels (burstUnits bs) =
    (List.replicate 16 true).flatMap cell ++ bs.flatMap fun v => (false :: (byteBits v ++ [true])).flatMap cell := by
  have hpreamble : unitLevels .preamble = (List.replicate 8 true).flatMap cell := unitLevels_eq_cells .preamble
  have hframes : (bs.map TxUnit.frame).flatMap unitLevels =
      bs.flatMap fun v => (false :: (byteBits v ++ [true])).flatMap cell := by
    simp only [List.flatMap_map, unitLevels_eq_cells, unitBits_frame]
  rw [lineLevels, burstUnits, List.flatMap_cons, List.flatMap_cons, hpreamble, hframes, ← List.append_assoc]
  rfl

theorem length_lineLevels_burstUnits (bs : List Byte) : (lineLevels (burstUnits bs)).length = 32 + 20 * bs.length := by
  have hunit (u : TxUnit) : (unitLevels u).length = nhalves u := by simp [unitLevels]
  have hpreamble : nhalves .preamble = 16 := rfl
  have hframe (b : Byte) : nhalves (TxUnit.frame b) = 20 := rfl
  simp [lineLevels, burstUnits, hunit, List.length_flatMap, Function.comp_def, hpreamble, hframe]
  omega

namespace Machine

/-- Settles O49: a unit's levels are the cells of its bits. -/
theorem unitsOnTheLine : Obligations.UnitsOnTheLine := by
  intro v s data cells
  have hrow (u : TxUnit) : unitValue u = .line (unitBits u) (cells (unitBits u)) := by
    rw [unitValue, unitLevels_eq_cells]; rfl
  refine ⟨?framed, ?unframed, ?preamble⟩
  case framed => exact congrArg (fun r => Host.Outcome.next (setResult r s)) (hrow (TxUnit.frame v))
  case unframed => exact congrArg (fun r => Host.Outcome.next (setResult r s)) (hrow { framed := false, payload := v })
  case preamble => exact congrArg (fun r => Host.Outcome.next (setResult r s)) (hrow TxUnit.preamble)

/-- Settles O50: the levels of a burst are the cells of its units' bits. -/
theorem burstOnTheLine : Obligations.BurstOnTheLine := by
  intro bs s cells data levels
  have hlevels : lineLevels (burstUnits bs) = levels := lineLevels_burstUnits bs
  refine ⟨?row, ?length⟩
  case row => exact congrArg (fun l => Host.Outcome.next (setResult (.burst (burstUnits bs) l) s)) hlevels
  case length => rw [← hlevels, length_lineLevels_burstUnits]

theorem ofBool_append_eq_ofNat (b : Bool) (v : Byte) :
    BitVec.ofBool b ++ v = BitVec.ofNat 9 (b.toNat * 256 + v.toNat) := by
  have hv := v.isLt
  apply BitVec.eq_of_toNat_eq
  rw [BitVec.toNat_append, ← Nat.shiftLeft_add_eq_or_of_lt hv, BitVec.toNat_ofNat]
  cases b <;> simp [Nat.shiftLeft_eq] <;> omega

theorem unpack_ofBool_append (b : Bool) (v : Byte) :
    TxUnit.unpack (BitVec.ofBool b ++ v) = { framed := b, payload := v } := by
  have hflag : (BitVec.ofBool b ++ v).getLsbD 8 = b := by rw [BitVec.getLsbD_append]; simp
  have hbyte : (BitVec.ofBool b ++ v).extractLsb' 0 8 = v := BitVec.extractLsb'_append_eq_right
  rw [TxUnit.unpack, hflag, hbyte]

/-- A queue entry has the flag above its byte (30_encoding.md R94). -/
theorem entryValue_eq (b : Bool) (v : Byte) : entryValue (BitVec.ofBool b ++ v) =
    .entry (BitVec.ofNat 9 (b.toNat * 256 + v.toNat)) { framed := b, payload := v } := by
  rw [entryValue, unpack_ofBool_append, ofBool_append_eq_ofNat]

/-- Settles O48: the symbols by computation, the entries by `entryValue_eq`. -/
theorem symbolsAndEntries : Obligations.SymbolsAndEntries := by
  intro v s
  refine ⟨rfl, rfl, rfl, rfl, rfl, ?framed, ?reserved⟩
  case framed => exact congrArg (fun r => Host.Outcome.next (setResult r s)) (entryValue_eq true v)
  case reserved =>
    have h := entryValue_eq false v
    rw [Bool.toNat_false, Nat.zero_mul, Nat.zero_add] at h
    exact congrArg (fun r => Host.Outcome.next (setResult r s)) h

/-! ### Functions -/

theorem within_iff (v r tol : Nat) : within v r tol = true ↔ v ≤ r + tol ∧ r ≤ v + tol := by simp [within]

/-- Settles O51: `within_iff`, the rest being linear. -/
theorem withinIsDistance : Obligations.WithinIsDistance := by
  intro v r tol s
  have hiff := within_iff v r tol
  refine ⟨within v r tol, rfl, ?integers, hiff, fun htol => ?exact, fun hle hub => ?below⟩
  case integers => rw [hiff]; omega
  case exact => rw [hiff]; omega
  case below => rw [hiff]; omega

theorem classify_eq_halfIv_iff (c : Params) (dt : Nat) : classify c dt = .halfIv ↔ within dt c.half c.tol = true := by
  unfold classify; split_ifs <;> simp_all

theorem classify_eq_fullIv_iff (c : Params) (dt : Nat) : classify c dt = .fullIv ↔
    within dt c.half c.tol = false ∧ within dt (2 * c.half) c.tol = true := by
  unfold classify Params.bit; split_ifs <;> simp_all

/-- Settles O52: the order of the tests in `classify`, and the distance between the two windows. -/
theorem classifyTriesHalfFirst : Obligations.ClassifyTriesHalfFirst := by
  intro dt s
  refine ⟨classify s.cfg dt, rfl, classify_eq_halfIv_iff s.cfg dt, classify_eq_fullIv_iff s.cfg dt,
    fun htol => ⟨?disjoint, fun hdt => ?zero⟩⟩
  case disjoint => rw [within_iff, within_iff]; omega
  case zero =>
    have hhalf : ¬ within dt s.cfg.half s.cfg.tol = true := by rw [within_iff]; omega
    have hfull : ¬ within dt s.cfg.bit s.cfg.tol = true := by rw [within_iff, Params.bit]; omega
    rw [classify, if_neg hhalf, if_neg hfull]

theorem halflevel_eq_high_iff (u : TxUnit) (pos : Nat) (b : Bool) (hb : (unitBits u)[pos / 2]? = some b)
    (hpos : pos < nhalves u) : halflevel u pos = .high ↔ xor b (decide (pos % 2 = 1)) = true := by
  have hlevel (x : Bool) : Level.ofBit x = .high ↔ x = true := by cases x <;> simp [Level.ofBit]
  rw [halflevel, if_pos hpos, cellLevel, hlevel, List.getD_eq_getElem?_getD, hb]
  rfl

/-- Settles O53: inside the unit the position names a bit, as there are half as many bits as half-bits. -/
theorem lineFunctionValues : Obligations.LineFunctionValues := by
  intro u pos s
  have hlen := length_unitBits u
  refine ⟨rfl, ?nhalves, ?lengths, ⟨halflevel u pos, rfl, fun hpos => ?inside⟩, rfl, rfl⟩
  case nhalves => rw [hlen]; rfl
  case lengths => rw [hlen]; rfl
  case inside =>
    have hbit : pos / 2 < (unitBits u).length := by omega
    have hb := List.getElem?_eq_getElem hbit
    exact ⟨_, hb, halflevel_eq_high_iff u pos _ hb (hlen ▸ hpos)⟩

/-! ### The queue operations -/

theorem exec_qpush (u : TxUnit) (s : State) :
    exec (.qops (.qpush u)) s = .next (if canPush u s then pushUnit u s else s) := rfl

/-- Settles O55: QPush by `canPush`, QPop by the queue. -/
theorem queueOperations : Obligations.QueueOperations := by
  intro u rest s
  have hunit : u.creatable = true ↔ u.framed = true ∨ u.payload = 0xFF := by simp [TxUnit.creatable]
  refine ⟨rfl, fun hrun hroom hu => ?push, fun hnot => ?held, fun hq => ?pop, fun hq => ?empty⟩
  case push => rw [exec_qpush, if_pos ((canPush_iff u s).mpr ⟨hrun, hunit.mpr hu, hroom⟩), pushUnit]
  case held =>
    have hcan : ¬ canPush u s = true := by rw [canPush_iff, hunit]; grind
    rw [exec_qpush, if_neg hcan]
  case pop => simp [exec, execQops, hq, setResult]
  case empty => simp [exec, execQops, hq]

/-! ### Codings and words -/

/-- Settles O56: each coding by computation on its code. -/
theorem codingsStandForValues : Obligations.CodingsStandForValues := by
  intro s
  and_intros <;> rfl

/-- Settles O3: the words by computation. -/
theorem specWordsDecode : Obligations.SpecWordsDecode := by
  unfold Obligations.SpecWordsDecode
  and_intros <;> rfl

end Machine

end Sys2Proof
end

section
/-! A burst received: the edges of the line bit by bit, the search over the preamble, the lock on the first start bit, and the
frames after it (44_decoder.md section 6). -/

namespace Sys2Proof

/-! ### The edges of a sequence of bits -/

/-- The edges of the bit `b` in the half-bits `k` and `k + 1` after the bit `p`: one at the boundary between equal bits, and the
mid-bit edge (30_encoding.md R92, R93). -/
def cellEdges (p : Bool) (k : Nat) (b : Bool) : List (Dir × Nat) :=
  if p = b then [(Machine.dirTo (cellLevel b false), k), (Machine.dirTo (cellLevel b true), k + 1)]
  else [(Machine.dirTo (cellLevel b true), k + 1)]

/-- The edges of a sequence of bits from half-bit `k` on, after the bit `p`. -/
def bitEdges (p : Bool) (k : Nat) : List Bool → List (Dir × Nat)
  | [] => []
  | b :: bits => cellEdges p k b ++ bitEdges b (k + 2) bits

/-- A line that rests as after the bit `p` and then shows the cells of `bits` has their edges. -/
theorem lineEdges_cells (bits : List Bool) (p : Bool) (k : Nat) :
    Machine.lineEdges (cellLevel p true) k (bits.flatMap cell) = bitEdges p k bits := by
  induction bits generalizing p k with
  | nil => rfl
  | cons b bits ih =>
    have hrest := ih b (k + 2)
    rw [List.flatMap_cons, bitEdges, ← hrest]
    cases p <;> cases b <;> rfl

theorem bitval_mid (b : Bool) : bitval (Machine.dirTo (cellLevel b true)) = b := by cases b <;> rfl

/-- The bits of a framed unit (30_encoding.md R95). -/
def frameBits (v : Byte) : List Bool := false :: (byteBits v ++ [true])

theorem burst_edges (bs : List Byte) (k : Nat) : Machine.lineEdges .low k (lineLevels (burstUnits bs)) =
    bitEdges true k (List.replicate 16 true ++ bs.flatMap frameBits) := by
  rw [← lineEdges_cells, lineLevels_burstUnits, List.flatMap_append, List.flatMap_assoc]
  rfl

/-! ### Intervals within tolerance -/

theorem classify_of_within_half (c : Params) (dt : Nat) (h : within dt c.half c.tol = true) : classify c dt = .halfIv :=
  (Machine.classify_eq_halfIv_iff c dt).mpr h

theorem classify_of_within_full (c : Params) (dt : Nat) (hc : c.Legal) (h : within dt (2 * c.half) c.tol = true) :
    classify c dt = .fullIv := by
  obtain ⟨-, -, -, -, -, htol, -⟩ := hc
  rw [Machine.classify_eq_fullIv_iff]
  refine ⟨Bool.eq_false_iff.mpr fun hhalf => ?_, h⟩
  rw [Machine.within_iff] at h hhalf
  omega

namespace Machine

/-- The edges of `bits`, the first of them after an edge at half-bit `j` that ends the bit `p`, are stamped within the tolerance. -/
def Timely (c : Params) (stamp : Nat → Nat) (p : Bool) (j : Nat) (bits : List Bool) : Prop :=
  WithinTolerance c stamp ((.rising, j) :: bitEdges p (j + 1) bits)

/-- The interval from half-bit `j` to half-bit `j + n` has the class `iv`. -/
structure Interval (c : Params) (stamp : Nat → Nat) (j n : Nat) (iv : IvClass) : Prop where
  order : stamp j ≤ stamp (j + n)
  cls   : classify c (stamp (j + n) - stamp j) = iv

/-- The edge that ends an interval sees its class. -/
theorem Interval.edgeClass {c : Params} {stamp : Nat → Nat} {j n : Nat} {iv : IvClass} {s : State}
    (h : Interval c stamp j n iv) (hcfg : s.cfg = c) (hlast : s.lastTs = stamp j) :
    edgeClass s (stamp (j + n)) = iv := by
  rw [(edge_of_le s _ (hlast.trans_le h.order)).1, hcfg, hlast, h.cls]

theorem interval_half {c : Params} {stamp : Nat → Nat} {j : Nat} (horder : stamp j ≤ stamp (j + 1))
    (hw : within (stamp (j + 1) - stamp j) ((j + 1 - j) * c.half) c.tol = true) :
    Interval c stamp j 1 .halfIv :=
  ⟨horder, classify_of_within_half c _ (by simpa using hw)⟩

theorem interval_full {c : Params} {stamp : Nat → Nat} {j : Nat} (hc : c.Legal) (horder : stamp j ≤ stamp (j + 2))
    (hw : within (stamp (j + 2) - stamp j) ((j + 2 - j) * c.half) c.tol = true) :
    Interval c stamp j 2 .fullIv :=
  ⟨horder, classify_of_within_full c _ hc (by simpa using hw)⟩

/-- Only the place of its first edge matters to the tolerance of a list of edges. -/
theorem WithinTolerance.head {c : Params} {stamp : Nat → Nat} {d d' : Dir} {j : Nat} {l : List (Dir × Nat)}
    (h : WithinTolerance c stamp ((d, j) :: l)) : WithinTolerance c stamp ((d', j) :: l) := by
  cases l with
  | nil => trivial
  | cons e l => exact h

/-- After an equal bit: two half-bit intervals, by the boundary. -/
theorem Timely.equal {c : Params} {stamp : Nat → Nat} {b : Bool} {j : Nat} {bits : List Bool}
    (h : Timely c stamp b j (b :: bits)) :
    Interval c stamp j 1 .halfIv ∧ Interval c stamp (j + 1) 1 .halfIv ∧ Timely c stamp b (j + 2) bits := by
  rw [Timely, bitEdges, cellEdges, if_pos rfl] at h
  obtain ⟨ho1, hw1, ho2, hw2, hrest⟩ := h
  exact ⟨interval_half ho1 hw1, interval_half ho2 hw2, WithinTolerance.head hrest⟩

/-- After the other bit: one full-bit interval. -/
theorem Timely.other {c : Params} {stamp : Nat → Nat} {p b : Bool} {j : Nat} {bits : List Bool} (hc : c.Legal)
    (hpb : p ≠ b) (h : Timely c stamp p j (b :: bits)) :
    Interval c stamp j 2 .fullIv ∧ Timely c stamp b (j + 2) bits := by
  rw [Timely, bitEdges, cellEdges, if_neg hpb] at h
  obtain ⟨ho, hw, hrest⟩ := h
  exact ⟨interval_full hc ho hw, WithinTolerance.head hrest⟩

/-! ### The decoder over a list of edges -/

/-- The decoder after the edges, each with the stamp of its half-bit. -/
def runEdges (stamp : Nat → Nat) (edges : List (Dir × Nat)) (s : State) : State :=
  edges.foldl (fun s e => edgeEvent e.1 (stamp e.2) s) s

theorem execAll_edges (stamp : Nat → Nat) (edges : List (Dir × Nat)) (s : State) :
    execAll (edges.map fun e => edgeInstr e.1 (stamp e.2)) s = .next (runEdges stamp edges s) := by
  induction edges generalizing s with
  | nil => rfl
  | cons e edges ih => exact (execAll_edge (e.1, stamp e.2) _ s).trans (ih _)

/-- The decoder after the edges of `bits`, the bit `p` having ended with an edge at half-bit `j`. -/
def receive (stamp : Nat → Nat) (p : Bool) (j : Nat) (bits : List Bool) (s : State) : State :=
  runEdges stamp (bitEdges p (j + 1) bits) s

theorem receive_equal (stamp : Nat → Nat) (b : Bool) (j : Nat) (bits : List Bool) (s : State) :
    receive stamp b j (b :: bits) s = receive stamp b (j + 2) bits
      (edgeEvent (dirTo (cellLevel b true)) (stamp (j + 2)) (edgeEvent (dirTo (cellLevel b false)) (stamp (j + 1)) s)) := by
  rw [receive, bitEdges, cellEdges, if_pos rfl]
  rfl

theorem receive_other (stamp : Nat → Nat) {p b : Bool} (hpb : p ≠ b) (j : Nat) (bits : List Bool) (s : State) :
    receive stamp p j (b :: bits) s =
      receive stamp b (j + 2) bits (edgeEvent (dirTo (cellLevel b true)) (stamp (j + 2)) s) := by
  rw [receive, bitEdges, cellEdges, if_neg hpb]
  rfl

/-! ### The search over the preamble -/

/-- The decoder searches, its last edge at half-bit `j` and `n` half-bit intervals counted, and gave out `bytes` and `errs`. -/
structure Counting (c : Params) (ts n : Nat) (bytes : List Byte) (errs : List Cause) (s : State) : Prop where
  cfg      : s.cfg = c
  haveLast : s.haveLast = true
  sync     : s.sync = .searching
  lastTs   : s.lastTs = ts
  run      : s.run = sat c n
  rxBytes  : s.rxBytes = bytes
  rxErrs   : s.rxErrs = errs

theorem sat_sat_succ (c : Params) (n : Nat) : sat c (sat c n + 1) = sat c (n + 1) := by
  cases hm : c.runMax <;> simp only [sat, hm]
  omega

section Receive

variable {c : Params} {stamp : Nat → Nat} {bytes : List Byte} {errs : List Cause}

theorem Counting.half {j n : Nat} {s : State} (h : Counting c (stamp j) n bytes errs s)
    (hiv : Interval c stamp j 1 .halfIv) (d : Dir) :
    Counting c (stamp (j + 1)) (n + 1) bytes errs (edgeEvent d (stamp (j + 1)) s) := by
  rw [edgeEvent_searching_half d _ s h.haveLast h.sync (hiv.edgeClass h.cfg h.lastTs)]
  exact { h with lastTs := rfl, run := by rw [searchHalf, setLast_cfg, setLast_run, h.cfg, h.run, sat_sat_succ] }

/-- Each further 1 of the preamble counts its two half-bit intervals. -/
theorem Counting.ones (m : Nat) {j n : Nat} {bits : List Bool} {s : State} (h : Counting c (stamp j) n bytes errs s)
    (hT : Timely c stamp true j (List.replicate m true ++ bits)) :
    ∃ t, Counting c (stamp (j + 2 * m)) (n + 2 * m) bytes errs t ∧
      Timely c stamp true (j + 2 * m) bits ∧
      receive stamp true j (List.replicate m true ++ bits) s = receive stamp true (j + 2 * m) bits t := by
  induction m generalizing j n s with
  | zero => exact ⟨s, h, hT, rfl⟩
  | succ m ih =>
    rw [List.replicate_succ, List.cons_append] at hT ⊢
    obtain ⟨hboundary, hmid, hrest⟩ := hT.equal
    have hnext := (h.half hboundary (dirTo (cellLevel true false))).half hmid (dirTo (cellLevel true true))
    obtain ⟨t, ht, htT, hreceive⟩ := ih hnext hrest
    rw [receive_equal]
    have hj : j + 2 * (m + 1) = j + 2 + 2 * m := by omega
    have hn : n + 2 * (m + 1) = n + 1 + 1 + 2 * m := by omega
    rw [hj, hn]
    exact ⟨t, ht, htT, hreceive⟩

/-- The first two edges of a burst: the reference, and the first half-bit interval. -/
theorem first_bit_counted {k : Nat} {bits : List Bool} {s : State} (hcfg : s.cfg = c) (hl : s.haveLast = false)
    (hy : s.sync = .searching) (hbytes : s.rxBytes = bytes) (herrs : s.rxErrs = errs)
    (hT : WithinTolerance c stamp (bitEdges true k (true :: bits))) :
    ∃ t, Counting c (stamp (k + 1)) 1 bytes errs t ∧ Timely c stamp true (k + 1) bits ∧
      runEdges stamp (bitEdges true k (true :: bits)) s = receive stamp true (k + 1) bits t := by
  rw [bitEdges, cellEdges, if_pos rfl] at hT ⊢
  obtain ⟨horder, hw, hrest⟩ := hT
  have hfirst : edgeEvent .rising (stamp k) s = firstEdge (stamp k) s := by simp [edgeEvent, hl]
  have hstart : Counting c (stamp k) 0 bytes errs (firstEdge (stamp k) s) :=
    { cfg := hcfg, haveLast := rfl, sync := hy, lastTs := rfl, rxBytes := hbytes, rxErrs := herrs
      run := by cases hm : c.runMax <;> simp [firstEdge, sat, hm] }
  have hnext := hstart.half (interval_half horder hw) .falling
  rw [← hfirst] at hnext
  exact ⟨_, hnext, WithinTolerance.head hrest, rfl⟩

/-! ### The frames -/

/-- The decoder is synced, its last edge the mid-bit edge stamped `ts`; it expects the bit of `slot` of a frame whose bits so far
are in `v`, and gave out `bytes` and `errs`. -/
structure Receiving (c : Params) (ts slot : Nat) (v : Byte) (bytes : List Byte) (errs : List Cause) (s : State) :
    Prop where
  cfg      : s.cfg = c
  haveLast : s.haveLast = true
  sync     : s.sync = .synced
  phase    : s.phase = .mid
  lastTs   : s.lastTs = ts
  slot     : s.slot = slot
  shreg    : s.shreg = v
  rxBytes  : s.rxBytes = bytes
  rxErrs   : s.rxErrs = errs

/-- The first start bit after enough half-bit intervals locks (44_decoder.md R206). -/
theorem Counting.locks {j n : Nat} {s : State} (h : Counting c (stamp j) n bytes errs s)
    (hiv : Interval c stamp j 2 .fullIv) (hn : c.syncRun ≤ sat c n) :
    Receiving c (stamp (j + 2)) 1 0x00 bytes errs (edgeEvent .rising (stamp (j + 2)) s) := by
  have hlock : lockCond (setLast (stamp (j + 2)) s) .rising = true :=
    (lockCond_iff _ _).mpr ⟨rfl, by rw [setLast_cfg, setLast_run, h.cfg, h.run]; exact hn⟩
  rw [edgeEvent_searching_full _ _ s h.haveLast h.sync (hiv.edgeClass h.cfg h.lastTs), searchFull, if_pos hlock]
  exact { cfg := h.cfg, haveLast := h.haveLast, sync := rfl, phase := rfl, lastTs := rfl, slot := rfl, shreg := rfl
          rxBytes := h.rxBytes, rxErrs := h.rxErrs }

/-- The edges of a bit while synced deliver it, whichever bit it follows (44_decoder.md R208, R213). -/
theorem Receiving.bit {j slot : Nat} {v : Byte} {p b : Bool} {bits : List Bool} {s : State} (hc : c.Legal)
    (h : Receiving c (stamp j) slot v bytes errs s) (hT : Timely c stamp p j (b :: bits)) :
    ∃ u, Receiving c (stamp (j + 2)) slot v bytes errs u ∧ Timely c stamp b (j + 2) bits ∧
      receive stamp p j (b :: bits) s = receive stamp b (j + 2) bits (deliver b u) := by
  by_cases hpb : p = b
  case pos =>
    subst hpb
    obtain ⟨hboundary, hmid, hrest⟩ := hT.equal
    let s1 : State := { setLast (stamp (j + 1)) s with run := sat s.cfg (s.run + 1), phase := .boundary }
    let u : State := { setLast (stamp (j + 2)) s1 with run := sat s.cfg (s1.run + 1), phase := .mid }
    have h1 : edgeEvent (dirTo (cellLevel p false)) (stamp (j + 1)) s = s1 := by
      rw [edgeEvent_synced_half _ _ s h.haveLast h.sync (hboundary.edgeClass h.cfg h.lastTs),
        syncHalf_mid _ (setLast (stamp (j + 1)) s) h.phase]
      rfl
    have h2 : edgeEvent (dirTo (cellLevel p true)) (stamp (j + 2)) s1 = deliver p u := by
      rw [edgeEvent_synced_half _ _ s1 h.haveLast h.sync (hmid.edgeClass h.cfg rfl), syncHalf_boundary _ _ rfl,
        bitval_mid]
      rfl
    exact ⟨u, { h with phase := rfl, lastTs := rfl }, hrest, by rw [receive_equal, h1, h2]⟩
  case neg =>
    obtain ⟨hiv, hrest⟩ := hT.other hc hpb
    let u : State := { setLast (stamp (j + 2)) s with run := 0 }
    have h1 : edgeEvent (dirTo (cellLevel b true)) (stamp (j + 2)) s = deliver b u := by
      rw [edgeEvent_synced_full _ _ s h.haveLast h.sync (hiv.edgeClass h.cfg h.lastTs),
        syncFull_mid _ (setLast (stamp (j + 2)) s) h.phase, bitval_mid]
    exact ⟨u, { h with lastTs := rfl }, hrest, by rw [receive_other stamp hpb, h1]⟩

theorem Receiving.deliver_start {ts : Nat} {v : Byte} {u : State} (h : Receiving c ts 0 v bytes errs u) :
    Receiving c ts 1 0x00 bytes errs (deliver false u) := by
  rw [deliver_start_zero u h.slot]
  exact { h with slot := rfl, shreg := rfl }

theorem Receiving.deliver_data {ts i : Nat} {v : Byte} {u : State} (h : Receiving c ts (i + 1) v bytes errs u)
    (hi : i < 8) (b : Bool) : Receiving c ts (i + 2) (setBit v i b) bytes errs (deliver b u) := by
  have hslot : u.slot = i + 1 := h.slot
  rw [Machine.deliver_data b u (by omega) (by omega)]
  exact { h with slot := congrArg (· + 1) h.slot, shreg := by simp [hslot, h.shreg] }

theorem Receiving.deliver_stop {ts : Nat} {v : Byte} {u : State} (h : Receiving c ts 9 v bytes errs u) :
    Receiving c ts 0 v (bytes ++ [v]) errs (deliver true u) := by
  rw [deliver_stop_one u h.slot]
  exact { h with slot := rfl, rxBytes := by simp [h.rxBytes, h.shreg] }

/-- The data bits from `i` on complete the byte of which those below `i` have come (44_decoder.md R211). -/
theorem Receiving.data (m : Nat) {i j : Nat} {v w : Byte} {p : Bool} {bits : List Bool} {s : State} (hc : c.Legal)
    (h : Receiving c (stamp j) (i + 1) w bytes errs s) (him : i + m = 8)
    (hw : ∀ n < i, w.getLsbD n = v.getLsbD n)
    (hT : Timely c stamp p j ((List.range' i m).map v.getLsbD ++ bits)) :
    ∃ q j' t, Receiving c (stamp j') 9 v bytes errs t ∧ Timely c stamp q j' bits ∧
      receive stamp p j ((List.range' i m).map v.getLsbD ++ bits) s = receive stamp q j' bits t := by
  induction m generalizing i j w p s with
  | zero =>
    obtain rfl : i = 8 := him
    obtain rfl : w = v := BitVec.eq_of_getLsbD_eq fun n hn => hw n hn
    exact ⟨p, j, s, h, hT, rfl⟩
  | succ m ih =>
    rw [List.range'_succ, List.map_cons, List.cons_append] at hT ⊢
    obtain ⟨u, hu, huT, hreceive⟩ := h.bit hc hT
    have hset : ∀ n < i + 1, (setBit w i (v.getLsbD i)).getLsbD n = v.getLsbD n := by
      intro n hn
      rw [getLsbD_setBit w i n _ (by omega)]
      split
      next heq => rw [heq]
      next hne => exact hw n (by omega)
    rw [hreceive]
    exact ih (hu.deliver_data (by omega) (v.getLsbD i)) (by omega) hset huT

/-- After its start bit a frame gives out its byte. -/
theorem Receiving.frame {j : Nat} {v : Byte} {bits : List Bool} {s : State} (hc : c.Legal)
    (h : Receiving c (stamp j) 1 0x00 bytes errs s) (hT : Timely c stamp false j (byteBits v ++ true :: bits)) :
    ∃ j' t, Receiving c (stamp j') 0 v (bytes ++ [v]) errs t ∧ Timely c stamp true j' bits ∧
      receive stamp false j (byteBits v ++ true :: bits) s = receive stamp true j' bits t := by
  rw [byteBits, List.range_eq_range'] at hT ⊢
  obtain ⟨q, j', t, ht, htT, hdata⟩ := h.data 8 hc rfl (fun n hn => absurd hn (Nat.not_lt_zero n)) hT
  obtain ⟨u, hu, huT, hstop⟩ := ht.bit hc htT
  exact ⟨j' + 2, _, hu.deliver_stop, huT, hdata.trans hstop⟩

theorem flatMap_frameBits_cons (v : Byte) (bs : List Byte) :
    (v :: bs).flatMap frameBits = false :: (byteBits v ++ true :: bs.flatMap frameBits) := by simp [frameBits]

/-- Frames after a stop bit give out their bytes and no cause. -/
theorem Receiving.frames (bs : List Byte) {j : Nat} {v : Byte} {bytes : List Byte} {s : State} (hc : c.Legal)
    (h : Receiving c (stamp j) 0 v bytes errs s) (hT : Timely c stamp true j (bs.flatMap frameBits)) :
    (receive stamp true j (bs.flatMap frameBits) s).rxBytes = bytes ++ bs ∧
      (receive stamp true j (bs.flatMap frameBits) s).rxErrs = errs := by
  induction bs generalizing j v bytes s with
  | nil => exact ⟨h.rxBytes.trans (List.append_nil bytes).symm, h.rxErrs⟩
  | cons b bs ih =>
    rw [flatMap_frameBits_cons] at hT ⊢
    obtain ⟨u, hu, huT, hstart⟩ := h.bit hc hT
    obtain ⟨j', t, ht, htT, hframe⟩ := hu.deliver_start.frame hc huT
    rw [hstart, hframe, List.append_cons]
    exact ih ht htT

/-- The frames of a burst after the preamble: the first start bit locks. -/
theorem Counting.frames (bs : List Byte) {j n : Nat} {s : State} (hc : c.Legal) (hn : c.syncRun ≤ sat c n)
    (h : Counting c (stamp j) n bytes errs s) (hT : Timely c stamp true j (bs.flatMap frameBits)) :
    (receive stamp true j (bs.flatMap frameBits) s).rxBytes = bytes ++ bs ∧
      (receive stamp true j (bs.flatMap frameBits) s).rxErrs = errs := by
  cases bs with
  | nil => exact ⟨h.rxBytes.trans (List.append_nil bytes).symm, h.rxErrs⟩
  | cons b bs =>
    rw [flatMap_frameBits_cons] at hT ⊢
    obtain ⟨hiv, hrest⟩ := hT.other hc Bool.false_ne_true.symm
    obtain ⟨j', t, ht, htT, hframe⟩ := (h.locks hiv hn).frame hc hrest
    have hrising : dirTo (cellLevel false true) = .rising := rfl
    rw [receive_other stamp Bool.false_ne_true.symm, hrising, hframe, List.append_cons]
    exact ht.frames bs hc htT

/-- The 31 half-bit intervals between the edges of the preamble suffice to lock. -/
theorem syncRun_le_sat_preamble (hc : c.Legal) : c.syncRun ≤ sat c 31 := by
  obtain ⟨-, -, -, -, hrun, -, hmax⟩ := hc
  cases hm : c.runMax with
  | none => simp only [sat, hm]; omega
  | some m =>
    have := hmax m hm
    simp only [sat, hm]
    omega

end Receive

/-- Settles O38: the preamble's half-bit intervals are counted, the first start bit locks, and each frame gives out its byte. -/
theorem firstBurstRoundTrip : Obligations.FirstBurstRoundTrip := by
  intro bs k stamp s hc hl hy edges hT
  have hedges : edges = bitEdges true k (true :: (List.replicate 15 true ++ bs.flatMap frameBits)) := burst_edges bs k
  rw [hedges] at hT ⊢
  obtain ⟨s1, h1, hT1, hfirst⟩ := first_bit_counted rfl hl hy rfl rfl hT
  obtain ⟨s2, h2, hT2, hpreamble⟩ := h1.ones 15 hT1
  have hframes := h2.frames bs hc (syncRun_le_sat_preamble hc) hT2
  rw [← hpreamble, ← hfirst] at hframes
  exact ⟨_, execAll_edges stamp _ s, hframes⟩

end Machine

end Sys2Proof
end
